-- ==== Sys2Proof/Word.lean ====
section
/-! DEFINITION. The words the Tavicor 2408 moves, and the plain arithmetic its rules share (spec 00_scope 1.6). -/

namespace Sys2Proof

/-- An octet, on a port, on a line or in the DRAM. -/
abbrev Byte := BitVec 8

/-- "Clamped to a..b" for integers: below a becomes a, above b becomes b (00_scope 1.6). -/
def clampInt (lo hi x : Int) : Int := if x < lo then lo else if hi < x then hi else x

/-- "Clamped to a..b" for natural numbers (00_scope 1.6). -/
def clampNat (lo hi x : Nat) : Nat := if x < lo then lo else if hi < x then hi else x

/-- Division rounding up, for a divisor above 0. -/
def ceilDiv (a b : Nat) : Nat := (a + b - 1) / b

end Sys2Proof
end

