-- ==== Sys2Proof/Syntax.lean ====
section
/-! DEFINITION. The commands of the Tavicor 2408: one constructor of `Instr` for each row of spec/opcode_table.json, with the
row's operands. A master's command carries its port, its tag and its arguments as the owning rule names them; an event carries
what the line, the pin or the detector reports. -/

namespace Sys2Proof

/-! ## Names -/

/-- LINE 0 and LINE 1 (00_scope 1.6). -/
inductive LineId where
  | line0 | line1
deriving DecidableEq, Repr

/-- The Computer Port and the Panel Port (11). -/
inductive PortId where
  | cp | pp
deriving DecidableEq, Repr

/-- The three voice contexts (05); also the targets of PLAY, RECORD and STOP (R122 to R124). -/
inductive CtxId where
  | l0 | l1 | loc
deriving DecidableEq, Repr

/-- The direction of a stream (Table 10-1). -/
inductive Dir where
  | inbound | outbound
deriving DecidableEq, Repr

/-- The five line-side clients of the memory arbiter, in rotation order (R87). -/
inductive LineClient where
  | voice (c : CtxId)
  | fax (l : LineId)
deriving DecidableEq, Repr

/-- The change flags of a line (Table 1-8). -/
inductive ChangeFlag where
  | ring | state | caller | extension | fault
deriving DecidableEq, Repr

/-- The purpose of a call (Table 1-7). -/
inductive Purpose where
  | none | voice | fax | data | talk
deriving DecidableEq, Repr

/-- The answer modes of the line policy (Table 1-9). -/
inductive AnswerMode where
  | off | voice | fax | data | auto
deriving DecidableEq, Repr

/-- Whether a caller record sets the clock (Table 1-9). -/
inductive SetClockMode where
  | never | ifUnset | always
deriving DecidableEq, Repr

/-- The classes of a cadence entry (R35). -/
inductive CadenceClass where
  | dial | busy | ringback | congestion | faxCalling | spare
deriving DecidableEq, Repr

/-- The keys of a keypad (R36). -/
inductive Key where
  | digit (d : Fin 10)
  | star
  | hash
deriving DecidableEq, Repr

/-- What a detector other than the steady-tone detector has been hearing (R36). -/
inductive Heard where
  | keypad | answer | dataCalling | speech
deriving DecidableEq, Repr

/-- The symbols of a dial string (Table 3-2). -/
inductive DialSym where
  | key (k : Key)
  | comma
  | wait
  | flash
  | toneMode
  | pulseMode
deriving DecidableEq, Repr

/-- The purposes of a queued call (Table 3-4). -/
inductive QueuePurpose where
  | faxSend | data | voiceDeliver | ringOnly
deriving DecidableEq, Repr

/-- The line preference of a queued call (Table 3-4). -/
inductive LinePref where
  | line0 | line1 | either
deriving DecidableEq, Repr

/-- The kinds of a directory entry (Table 4-2). -/
inductive Kind where
  | voice | greeting | announce | faxIn | faxOut | callNote
deriving DecidableEq, Repr

/-- The two voice codes (00_scope 1.6). -/
inductive Code where
  | q4 | q8
deriving DecidableEq, Repr

/-- The storage rates, in samples a second (00_scope 1.6). -/
inductive Rate where
  | r7200 | r8000 | r9600
deriving DecidableEq, Repr

/-- The dither modes of Q8 (R102). -/
inductive Dither where
  | none | alt | altBlock
deriving DecidableEq, Repr

/-- The resolutions of a fax page (Table 4-3). -/
inductive Resolution where
  | standard | fine
deriving DecidableEq, Repr

/-- The roles of a link (Table 9-1). -/
inductive LinkRole where
  | caller | answerer
deriving DecidableEq, Repr

/-- The notice classes (Table 11-2). -/
inductive NoticeClass where
  | line | caller | call | link | fax | voice | store | stream
deriving DecidableEq, Repr

/-! ## Arguments -/

/-- An optional argument with a list of values: not named, named with a value outside its list, or named with a value. -/
inductive Arg (α : Type) where
  | absent
  | bad
  | val (a : α)
deriving DecidableEq, Repr

/-- What the packet of a master's command carries besides the command: the port it came by, its tag, and whether its arguments
have the right form (R202: an argument the command does not take, or a value of the wrong form, makes `argsOk` false). -/
structure CmdHead where
  port : PortId
  tag : BitVec 8
  argsOk : Bool
deriving DecidableEq, Repr

/-- SET LINE POLICY: any subset of the settings of Table 1-9. -/
structure PolicyArgs where
  answerMode : Arg AnswerMode
  ringCount : Option Nat
  tollSaver : Arg Bool
  outgoing : Arg Bool
  callerId : Arg Bool
  typeValue : Option Nat
  typeMask : Option Nat
  setClock : Arg SetClockMode
  noteAll : Arg Bool
  extYield : Arg Bool
deriving DecidableEq, Repr

/-- One cadence entry of SET CADENCE (R35); a class outside the list is `none`. -/
structure CadenceArg where
  entry : Nat
  cls : Option CadenceClass
  onMin : Nat
  onMax : Nat
  offMin : Nat
  offMax : Nat
  repeatCount : Nat
deriving DecidableEq, Repr

/-- SET CADENCE (R35). -/
structure CadenceArgs where
  entries : List CadenceArg
  onTime : Option Nat
  gapTime : Option Nat
deriving DecidableEq, Repr

/-- DIAL (R54). A symbol that is not in Table 3-2 is `none`. -/
structure DialArgs where
  string : List (Option DialSym)
  purpose : Arg Purpose
  blind : Bool
  limit : Option Nat
deriving DecidableEq, Repr

/-- QUEUE CALL (R56). An unknown purpose or line preference is `none` or `bad`. -/
structure QueueArgs where
  string : List (Option DialSym)
  blind : Bool
  purpose : Option QueuePurpose
  message : Option Nat
  pref : Arg LinePref
  delay : Option Nat
  attempts : Option Nat
  interval : Option Nat
  limit : Option Nat
deriving DecidableEq, Repr

/-- SET CLOCK (R89). -/
structure ClockArgs where
  month : Nat
  day : Nat
  hour : Nat
  minute : Nat
  second : Nat
deriving DecidableEq, Repr

/-- SET VOICE (R94, R113). -/
structure VoiceArgs where
  recGain : Option Nat
  playGain : Option Nat
  rate : Arg Rate
  code : Arg Code
  dither : Arg Dither
  threshold : Option Nat
  continueLate : Arg Bool
  silenceTime : Option Nat
  maxLength : Option Nat
  screening : Arg Bool
deriving DecidableEq, Repr

/-- RECORD (R123). -/
structure RecordArgs where
  target : Option CtxId
  kind : Arg Kind
  mailbox : Option Nat
  beep : Bool
deriving DecidableEq, Repr

/-- SET FAX (R147). `station` is `val none` when the identity is to become absent. -/
structure FaxArgs where
  maxRate : Option Nat
  fine : Arg Bool
  corrected : Arg Bool
  minLineTime : Option Nat
  tolerance : Option Nat
  runLimit : Option Nat
  progress : Option Nat
  station : Arg (Option (List Byte))
  lossTime : Option Nat
deriving DecidableEq, Repr

/-- SET LINK (R172). -/
structure LinkArgs where
  window : Option Nat
  payload : Option Nat
  ceiling : Option Nat
  plainFallback : Arg Bool
  retryLimit : Option Nat
  replyTimer : Option Nat
  stepDown : Option Nat
  lossTime : Option Nat
deriving DecidableEq, Repr

/-- WRITE (R191). `dma` is absent where the packet does not carry the option. -/
structure WriteArgs where
  kind : Option Kind
  mailbox : Option Nat
  code : Option Code
  rate : Option Rate
  station : Option (List Byte)
  dma : Option Bool
deriving DecidableEq, Repr

/-- READ (R193). -/
structure ReadArgs where
  handle : Nat
  start : Option Nat
  dma : Option Bool
deriving DecidableEq, Repr

/-- SET ACCESS CODE (R113): four decimal digits, NONE, or anything else. -/
inductive AccessArg where
  | none
  | digits (a b c d : Fin 10)
  | bad
deriving DecidableEq, Repr

/-- A command of Table 11-3 as a COMMAND packet carries it (R201, R202). Numbers are as the packet gives them; a name outside
its list is `none` or `Arg.bad`. -/
inductive Command where
  | lineStatus (line : Nat)
  | ackChanges (line : Nat) (flags : List ChangeFlag)
  | setLinePolicy (line : Nat) (a : PolicyArgs)
  | takeLine (line : Nat)
  | releaseLine (line : Nat)
  | answer (line : Nat) (purpose : Option Purpose)
  | hookOff (line : Nat)
  | hookOn (line : Nat)
  | hangUp (line : Nat)
  | setCadence (line : Nat) (a : CadenceArgs)
  | dial (line : Nat) (a : DialArgs)
  | queueCall (a : QueueArgs)
  | cancelCall (entry : Nat)
  | removeCall (entry : Nat)
  | listCalls
  | openEntry (entry : Nat)
  | close (handle : Nat)
  | delete (entry : Nat)
  | protect (entry : Nat) (on : Bool)
  | markReviewed (entry : Nat)
  | markUnreviewed (entry : Nat)
  | storeStatus
  | setReserve (blocks : Nat)
  | eraseStore
  | listMessages (kind : Option Kind) (mailbox : Option Nat)
  | messageInfo (entry : Nat)
  | setClock (a : ClockArgs)
  | readClock
  | setVoice (context : Option CtxId) (a : VoiceArgs)
  | play (target : Option CtxId) (entry : Nat) (start : Nat)
  | record (a : RecordArgs)
  | stop (target : Option CtxId)
  | connectLocal (line : Nat) (on : Bool)
  | setAccessCode (a : AccessArg)
  | faxReceive (line : Nat)
  | faxAbort (line : Nat)
  | faxStatus (line : Nat)
  | setFax (line : Nat) (a : FaxArgs)
  | linkOpen (line : Nat) (role : Option LinkRole)
  | linkClose
  | linkStatus
  | setLink (a : LinkArgs)
  | write (a : WriteArgs)
  | read (a : ReadArgs)
  | clearStream (dir : Dir)
  | streamStatus (dir : Dir)
  | unknown (name : List Byte)
  | hello
  | identify
  | setNotices (classes : List (Option NoticeClass))
  | readNotice
  | reset
  | resetPort
deriving DecidableEq, Repr

/-! ## What the line brings -/

/-- The input levels the 2408 reads when RESETN is released (R1, R66, R199). -/
structure PinLevels where
  loop0 : Bool
  loop1 : Bool
  ext0 : Bool
  ext1 : Bool
  present : Bool
  ppLink : Bool
  msz1 : Bool
  msz0 : Bool
deriving DecidableEq, Repr

/-- What a PAGE-DONE says of the pages that follow (Table 8-3). -/
inductive PageEnd where
  | more | change | last
deriving DecidableEq, Repr

/-- The receiver's capabilities in an OFFER (Table 8-3). -/
structure Offer where
  maxRate : Fin 6
  fine : Bool
  corrected : Bool
  minLineTime : Nat
  ready : Bool
  station : Option (List Byte)
deriving DecidableEq, Repr

/-- The settings in force, from a CHOOSE (Table 8-1, Table 8-3). -/
structure Choice where
  rate : Fin 6
  resolution : Resolution
  corrected : Bool
  minLineTime : Nat
deriving DecidableEq, Repr

/-- The fax control frames (Table 8-3). Their octets are not in the spec, so they are exchanged as terms (log 15). -/
inductive ControlFrame where
  | offer (o : Offer)
  | choose (c : Choice) (station : Option (List Byte))
  | checkOk
  | checkFail
  | pageDone (e : PageEnd)
  | pageOk
  | pageRetrain
  | pageResend
  | blockEnd (block : Nat) (count : Nat)
  | blockStatus (block : Nat) (missing : List Nat)
  | endSession
deriving DecidableEq, Repr

/-- What stands between the opening flag and the closing flag of a received frame: the demodulated bits with their inserted
zeros (R134, R141), or a fax control frame addressed to 0xFF whose check passes (R143, R149, log 15). -/
inductive LineFrame where
  | bits (raw : List Bool)
  | control (c : ControlFrame)
deriving DecidableEq, Repr

/-! ## The commands -/

/-- The commands of the 2408, in the order of spec/opcode_table.json. -/
inductive Instr where
  | resetnRelease (pins : PinLevels)
  | standbynAssert
  | standbynRelease
  | presentHigh
  | presentLow
  | ppLinkUp
  | ppLinkDown
  | ringBurstStart (l : LineId)
  | ringBurstEnd (l : LineId) (t : Nat)
  | ringGone (l : LineId)
  | ringWaitExpiry (l : LineId)
  | faultTimerExpiry (l : LineId)
  | loopVoltageReturn (l : LineId)
  | loopBreak (l : LineId)
  | extChange (l : LineId) (offHook : Bool)
  | clearingGuardEnd (l : LineId)
  | callerWindowTimeout (l : LineId)
  | callerOctet (l : LineId) (octet : Byte) (framingFault : Bool)
  | lineStatus (h : CmdHead) (line : Nat)
  | ackChanges (h : CmdHead) (line : Nat) (flags : List ChangeFlag)
  | setLinePolicy (h : CmdHead) (line : Nat) (a : PolicyArgs)
  | takeLine (h : CmdHead) (line : Nat)
  | releaseLine (h : CmdHead) (line : Nat)
  | answer (h : CmdHead) (line : Nat) (purpose : Option Purpose)
  | hookOff (h : CmdHead) (line : Nat)
  | hookOn (h : CmdHead) (line : Nat)
  | hangUp (h : CmdHead) (line : Nat)
  | toneOn (l : LineId) (t : Nat)
  | toneOff (l : LineId) (t : Nat)
  | continuousCadence (l : LineId) (entry : Fin 8)
  | cadenceReset (l : LineId) (entry : Fin 8)
  | keypadDigit (l : LineId) (k : Key)
  | answerTone (l : LineId)
  | dataCallingTone (l : LineId)
  | speech (l : LineId)
  | generationDone (l : LineId)
  | setCadence (h : CmdHead) (line : Nat) (a : CadenceArgs)
  | trainingComplete (l : LineId) (measure : Fin 64)
  | trainingTimeout (l : LineId)
  | qualityReport (l : LineId) (measure : Fin 64)
  | carrierLost (l : LineId)
  | carrierBack (l : LineId)
  | carrierGone (l : LineId)
  | retrainRequested (l : LineId)
  | disturbance (l : LineId)
  | dialToneWaitTimeout (l : LineId)
  | dialPauseEnd (l : LineId)
  | pulseBreakEnd (l : LineId)
  | pulseMakeEnd (l : LineId)
  | digitPauseEnd (l : LineId)
  | flashEnd (l : LineId)
  | answerTimerExpiry (l : LineId)
  | ringbackSilenceExpiry (l : LineId)
  | dial (h : CmdHead) (line : Nat) (a : DialArgs)
  | queueCall (h : CmdHead) (a : QueueArgs)
  | cancelCall (h : CmdHead) (entry : Nat)
  | removeCall (h : CmdHead) (entry : Nat)
  | listCalls (h : CmdHead)
  | queueTimeTick
  | entryDue (entry : Fin 8)
  | openEntry (h : CmdHead) (entry : Nat)
  | close (h : CmdHead) (handle : Nat)
  | delete (h : CmdHead) (entry : Nat)
  | protect (h : CmdHead) (entry : Nat) (on : Bool)
  | markReviewed (h : CmdHead) (entry : Nat)
  | markUnreviewed (h : CmdHead) (entry : Nat)
  | storeStatus (h : CmdHead)
  | setReserve (h : CmdHead) (blocks : Nat)
  | eraseStore (h : CmdHead)
  | listMessages (h : CmdHead) (kind : Option Kind) (mailbox : Option Nat)
  | messageInfo (h : CmdHead) (entry : Nat)
  | setClock (h : CmdHead) (a : ClockArgs)
  | readClock (h : CmdHead)
  | clockTick
  | burstEnd
  | refreshRequest
  | bufferTurn (c : LineClient)
  | setVoice (h : CmdHead) (context : Option CtxId) (a : VoiceArgs)
  | frameEnd (c : CtxId)
  | maxLengthReached (c : CtxId)
  | voiceBlockFull (c : CtxId)
  | playbackEnd (c : CtxId)
  | playbackResume (c : CtxId)
  | play (h : CmdHead) (target : Option CtxId) (entry : Nat) (start : Nat)
  | record (h : CmdHead) (a : RecordArgs)
  | stop (h : CmdHead) (target : Option CtxId)
  | connectLocal (h : CmdHead) (line : Nat) (on : Bool)
  | setAccessCode (h : CmdHead) (a : AccessArg)
  | codeTimerExpiry (l : LineId)
  | keyTimerExpiry (l : LineId)
  | frameSent (l : LineId)
  | underrun (l : LineId)
  | frameReceived (l : LineId) (f : LineFrame)
  | frameAbortReceived (l : LineId)
  | transparentOctetReceived (l : LineId) (octet : Byte)
  | transparentDry (l : LineId)
  | faxResponseTimeout (l : LineId)
  | checkZerosEnd (l : LineId)
  | checkBitsTimeout (l : LineId)
  | faxReceive (h : CmdHead) (line : Nat)
  | faxAbort (h : CmdHead) (line : Nat)
  | faxStatus (h : CmdHead) (line : Nat)
  | setFax (h : CmdHead) (line : Nat) (a : FaxArgs)
  | callUpIntervalExpiry
  | callUpWaitExpiry
  | plainOctetReceived (octet : Byte)
  | replyTimerExpiry
  | deferredDelivery
  | proposalTimerExpiry
  | linkOpen (h : CmdHead) (line : Nat) (role : Option LinkRole)
  | linkClose (h : CmdHead)
  | linkStatus (h : CmdHead)
  | setLink (h : CmdHead) (a : LinkArgs)
  | write (h : CmdHead) (a : WriteArgs)
  | read (h : CmdHead) (a : ReadArgs)
  | clearStream (h : CmdHead) (dir : Dir)
  | streamStatus (h : CmdHead) (dir : Dir)
  | streamDataIn (p : PortId) (data : List Byte) (endMark : Bool)
  | streamCreditIn (p : PortId) (grant : Byte)
  | streamDataOut (p : PortId)
  | streamResume (p : PortId)
  | commandPacketArrival (p : PortId) (tag : BitVec 8) (argsOk : Bool) (c : Command)
  | badPacketHeader (p : PortId) (kind : Byte) (length : Nat)
  | unknownCommand (h : CmdHead) (name : List Byte)
  | replyRead (p : PortId)
  | hello (h : CmdHead)
  | identify (h : CmdHead)
  | setNotices (h : CmdHead) (classes : List (Option NoticeClass))
  | readNotice (h : CmdHead)
  | reset (h : CmdHead)
  | resetPort (h : CmdHead)
  | loopVoltageLoss (l : LineId)
  | toneNoLongerHeard (l : LineId) (what : Heard)
  | lineSample (c : CtxId) (x : BitVec 16)
  | flagFound (l : LineId)
  | frameFirstBit (l : LineId)
  | addressOctetReceived (l : LineId) (octet : Byte)
  | receiveLimitExceeded (l : LineId)
  | pageDataSent (l : LineId)
  | plainOctetSent
  | refusalSignalGapEnd (l : LineId)
deriving DecidableEq, Repr

end Sys2Proof
end

