-- ==== Sys2Proof/Config.lean ====
section
/-! DEFINITION. What an implementation of the Tavicor 2408 fixes: the constants the spec gives, and the two values it leaves
open. -/

namespace Sys2Proof.Config

/-- The design revision number, 1 to 255, that IDENTIFY reports (R203). The spec gives no value, so this constant has no body:
nothing can be proved of it but its range. It is held as the number less one (log 26). -/
opaque designRevisionLessOne : Fin 255

/-- The design revision number, 1 to 255 (R203). -/
def designRevision : Nat := designRevisionLessOne.val + 1

/-- The vendor name that IDENTIFY reports (R203). -/
def vendorName : String := "UBECTA"

/-- The part name that IDENTIFY reports (R203). -/
def partName : String := "TAVICOR 2408"

/-- Bytes of one store block (04, 4.1). -/
def blockBytes : Nat := 512

/-- Bytes of one DRAM burst (R87). -/
def burstBytes : Nat := 64

/-- What a DRAM byte that nothing has written reads as. DESIGN CHOICE, unsafe (log 3): the spec says only that the content is
not cleared at reset (R66). -/
def dramFill : Byte := 0

/-- The octets of a fax control frame between its address and its check. The spec names the control frames and their fields and
gives no octets for them (Table 8-3), so this function has no body: nothing can be proved of an octet (log 15). -/
opaque controlFrameOctets : ControlFrame → List Byte

/-- The octets of a fax control frame, within the 297 a frame may declare (R136). -/
def controlOctets (f : ControlFrame) : List Byte := (controlFrameOctets f).take 297

end Sys2Proof.Config
end

