-- ==== Sys2Proof/Machine/State.lean ====
section
/-! DEFINITION. The state of the Tavicor 2408 as plain data: every record of spec 01 to 11, the queue of waiting commands, and the
machine right after RESETN is released. Fields that are the model's own are marked so, with their log entry. -/

namespace Sys2Proof.Machine

/-! ## Pairs, triples -/

/-- One value for each line. -/
structure PerLine (α : Type) where
  line0 : α
  line1 : α
deriving DecidableEq, Repr

def PerLine.get {α : Type} (v : PerLine α) : LineId → α
  | .line0 => v.line0
  | .line1 => v.line1

def PerLine.set {α : Type} (v : PerLine α) (l : LineId) (a : α) : PerLine α :=
  match l with
  | .line0 => { v with line0 := a }
  | .line1 => { v with line1 := a }

/-- One value for each port. -/
structure PerPort (α : Type) where
  cp : α
  pp : α
deriving DecidableEq, Repr

def PerPort.get {α : Type} (v : PerPort α) : PortId → α
  | .cp => v.cp
  | .pp => v.pp

def PerPort.set {α : Type} (v : PerPort α) (p : PortId) (a : α) : PerPort α :=
  match p with
  | .cp => { v with cp := a }
  | .pp => { v with pp := a }

/-- One value for each voice context. -/
structure PerCtx (α : Type) where
  l0 : α
  l1 : α
  loc : α
deriving DecidableEq, Repr

def PerCtx.get {α : Type} (v : PerCtx α) : CtxId → α
  | .l0 => v.l0
  | .l1 => v.l1
  | .loc => v.loc

def PerCtx.set {α : Type} (v : PerCtx α) (c : CtxId) (a : α) : PerCtx α :=
  match c with
  | .l0 => { v with l0 := a }
  | .l1 => { v with l1 := a }
  | .loc => { v with loc := a }

/-! ## Line record (01) -/

/-- The line states (Table 1-10). -/
inductive LineState where
  | fault | idle | extension | ringing | seized | dialling | awaiting | voice | fax | data | talk | clearing
deriving DecidableEq, Repr

/-- Who commands a line (Table 1-7). -/
inductive Controller where
  | none | automatic | port (p : PortId)
deriving DecidableEq, Repr

/-- The caller-identity window (R21). -/
inductive Window where
  | closed | pending | opened
deriving DecidableEq, Repr

/-- A number or name withheld (Table 1-15). -/
inductive Withheld where
  | onRequest | unavailable
deriving DecidableEq, Repr

/-- The time field of a caller record, MMDDhhmm (Table 1-15). -/
structure CallerTime where
  month : Nat
  day : Nat
  hour : Nat
  minute : Nat
deriving DecidableEq, Repr

/-- A caller record (R22, R23). `received` tells RECEIVED from INVALID. -/
structure CallerRecord where
  received : Bool
  time : Option CallerTime
  number : Option (List (Fin 10))
  name : Option (List Byte)
  numberWithheld : Option Withheld
  nameWithheld : Option Withheld
deriving DecidableEq, Repr

/-- A set of change flags (Table 1-8). -/
structure Changes where
  ring : Bool
  state : Bool
  caller : Bool
  extension : Bool
  fault : Bool
deriving DecidableEq, Repr

/-- The on-hook fault timer (R4, R14): `reached` is 1000 ms without voltage. -/
inductive FaultTimer where
  | stopped | running | reached
deriving DecidableEq, Repr

/-- The line policy (Table 1-9). -/
structure LinePolicy where
  answerMode : AnswerMode
  ringCount : Nat
  tollSaver : Bool
  outgoing : Bool
  callerId : Bool
  typeValue : Byte
  typeMask : Byte
  setClock : SetClockMode
  noteAll : Bool
  extYield : Bool
deriving DecidableEq, Repr

/-- The line record (Table 1-7), its timers and outputs, and what the Line Controller is doing on the line. -/
structure LineRec where
  state : LineState
  controller : Controller
  ringCount : Nat
  snapshot : Nat
  caller : Option CallerRecord
  purpose : Purpose
  entryRef : Option (Fin 8)
  lastRingEnd : Option Nat
  window : Window
  changes : PerPort Changes
  faultTimer : FaultTimer
  loopBreak : Bool
  extRemembered : Bool
  hook : Bool
  ringWait : Bool
  ringGone : Bool
  due : Bool
  decided : Bool
  callerOctets : List Byte
  callerFault : Bool
  policy : LinePolicy
deriving DecidableEq, Repr

/-! ## Signal Unit (02) -/

/-- The Signal Unit modes (Table 2-2). -/
inductive SuMode where
  | quiet | tones | callerRx | voice | data | faxSlow | faxFast | retrain
deriving DecidableEq, Repr

/-- What the detectors hear (Table 2-1). -/
inductive Detector where
  | none | steady | answer | dataCalling | keypad | speech
deriving DecidableEq, Repr

/-- A tone the unit generates (R37). -/
inductive Tone where
  | keypad (k : Key)
  | beep
  | answerTone
deriving DecidableEq, Repr

/-- How a generation ended, as the unit reports it (R37). -/
inductive ToneEnd where
  | complete | cut | refused
deriving DecidableEq, Repr

/-- A generation done: the tone and its result (R37). -/
structure ToneReport where
  tone : Tone
  result : ToneEnd
deriving DecidableEq, Repr

/-- The tone being generated (R37): how long it sounds, the silence after it, and the line sample the line had reached when it was
asked for (log 14). -/
structure Generation where
  tone : Tone
  duration : Nat
  gap : Nat
  start : Nat
deriving DecidableEq, Repr

/-- A moment: the time in ms its command gives, and the line sample the line had reached (log 14). -/
structure Moment where
  ms : Nat
  clock : Nat
deriving DecidableEq, Repr

/-- A cadence table entry (Table 2-5). -/
structure CadenceEntry where
  cls : CadenceClass
  onMin : Nat
  onMax : Nat
  offMin : Nat
  offMax : Nat
  repeatCount : Nat
deriving DecidableEq, Repr

/-- The classifier's progress of one entry (R33, R34). -/
structure CadenceCounter where
  count : Nat
  runStart : Option Moment
  spoiled : Bool
  reported : Bool
deriving DecidableEq, Repr

/-- A Signal Unit (Table 2-1). -/
structure SignalUnit where
  mode : SuMode
  returnMode : Option SuMode
  plain : Bool
  training : Bool
  rate : Fin 6
  ownCeiling : Fin 6
  peerCeiling : Fin 6
  quality : Fin 64
  carrier : Bool
  watch : Bool
  lossTime : Nat
  lossTimer : Bool
  detector : Detector
  cadence : Vector CadenceEntry 8
  counters : Vector CadenceCounter 8
  generation : Option Generation
  lastTone : Option ToneReport
  toneOnTime : Nat
  toneGapTime : Nat
  onAt : Option Moment
  pairOn : Option Moment
  offAt : Option Nat
  onDuration : Option Nat
  offDuration : Option Nat
  heardKeypad : Bool
  heardAnswer : Bool
  heardData : Bool
  heardSpeech : Bool
  sampleClock : Nat
deriving DecidableEq, Repr

/-! ## Dialler and call queue (03) -/

/-- Call-progress outcomes (Table 3-3). -/
inductive DialOutcome where
  | answeredTone | answeredVoice | busy | congestion | noAnswer | noDialTone | lineInUse | noCarrier | dataRefused | cancelled
deriving DecidableEq, Repr

/-- Who asked for a dial (Table 3-1). -/
inductive DialOwner where
  | port (p : PortId)
  | entry (n : Fin 8)
deriving DecidableEq, Repr

/-- Where a dial stands (Table 3-1). -/
inductive DialPhase where
  | idle | dialling | awaiting
deriving DecidableEq, Repr

/-- What an answered call is handed to (Table 3-1). -/
inductive DialPurpose where
  | voice | fax | data | ringOnly
deriving DecidableEq, Repr

/-- The dial record (Table 3-1). -/
structure DialRec where
  owner : Option DialOwner
  phase : DialPhase
  string : List DialSym
  position : Nat
  pulse : Bool
  toneSeen : Bool
  ringbacks : Nat
  limit : Nat
  purpose : DialPurpose
  outcome : Option DialOutcome
deriving DecidableEq, Repr

/-- What the dialler waits for in DIALLING (R47 to R50). A break and a make carry the breaks of the digit still to be made, the
present one included. -/
inductive DialStep where
  | none
  | dialTone (implicit : Bool)
  | tone
  | pause
  | pulseBreak (left : Nat)
  | pulseMake (left : Nat)
  | digitPause
  | flash
deriving DecidableEq, Repr

/-- A line's dialler: the record and the work in progress (R52: `silence` is the 6000 ms after a tone-off). -/
structure Dialler where
  record : DialRec
  step : DialStep
  silence : Bool
deriving DecidableEq, Repr

/-- Fax session outcomes (Table 8-5). -/
inductive FaxOutcome where
  | done | noResponse | checkFailed | pageFailed | storeFull | noCarrier | aborted
deriving DecidableEq, Repr

/-- Link outcomes (R186). -/
inductive LinkOutcome where
  | closed | noPeer | noCarrier | linkFailed | aborted | dataRefused
deriving DecidableEq, Repr

/-- The last outcome of a call-queue entry (Table 3-5). -/
inductive CallOutcome where
  | dial (o : DialOutcome)
  | fax (o : FaxOutcome)
  | link (o : LinkOutcome)
  | documentGone
  | dataRefused
deriving DecidableEq, Repr

/-- The states of a call-queue entry (R55). -/
inductive QueueState where
  | empty | waiting | dialling | inCall | done | failed | cancelled
deriving DecidableEq, Repr

/-- A call-queue entry (Table 3-4). Its handle stands in the handle table. -/
structure QueueEntry where
  state : QueueState
  order : Nat
  finish : Option Nat
  string : List DialSym
  blind : Bool
  purpose : QueuePurpose
  message : Option (Fin 128)
  pref : LinePref
  line : Option LineId
  earliest : Nat
  attempts : Nat
  attemptLimit : Nat
  interval : Nat
  ringLimit : Nat
  outcome : Option CallOutcome
deriving DecidableEq, Repr

/-! ## Message Store (04) -/

/-- The time of year (R89). -/
structure ClockTime where
  month : Nat
  day : Nat
  hour : Nat
  minute : Nat
  second : Nat
deriving DecidableEq, Repr

/-- The states of a directory entry (Table 4-2). -/
inductive EntryState where
  | free | writing | complete | deletePending
deriving DecidableEq, Repr

/-- Who made an entry (Table 4-2). -/
inductive Source where
  | line (l : LineId)
  | loc
  | port (p : PortId)
deriving DecidableEq, Repr

/-- Why a recording stopped (Table 6-3). -/
inductive StopReason where
  | silence | maxLength | loopBreak | tone | key | storeFull | late | stopped | taken | intercept
deriving DecidableEq, Repr

/-- A voice format (Table 4-2), with the dither mode a recording copies into it (R95); a port's WRITE names none. -/
structure VoiceFormat where
  code : Code
  rate : Rate
  dither : Option Dither
deriving DecidableEq, Repr

/-- One block of a block list, with the sample count the store keeps with it (R103; 0 for a fax block). -/
structure BlockRef where
  num : Nat
  samples : Nat
deriving DecidableEq, Repr

/-- A directory entry (Table 4-2). Its open-handle count is computed from the handle table. `completed` tells an entry deleted after
it completed from a write that was discarded under its readers (R76, log 22). -/
structure DirEntry where
  seqNo : BitVec 32
  kind : Kind
  state : EntryState
  mailbox : Option (Fin 5)
  source : Source
  stamp : Option ClockTime
  caller : Option CallerRecord
  station : Option (List Byte)
  format : Option VoiceFormat
  length : Nat
  committed : Nat
  blocks : List BlockRef
  pageList : List (Fin 256)
  reviewed : Bool
  truncated : Bool
  guarded : Bool
  stop : Option StopReason
  completed : Bool
deriving DecidableEq, Repr

/-- A page verdict (Table 4-3). -/
inductive PageVerdict where
  | pending | good | poor | bad
deriving DecidableEq, Repr

/-- A page entry (Table 4-3). `start` is the byte of the document at which the page begins: its block and byte offset are
`start / 512` in the block list and `start % 512`. -/
structure PageEntry where
  inUse : Bool
  owner : Fin 128
  number : Nat
  resolution : Resolution
  committedLines : Nat
  received : Nat
  badLines : Nat
  longestBad : Nat
  verdict : PageVerdict
  start : Nat
  byteLength : Nat
deriving DecidableEq, Repr

/-- Who holds a handle, and which of its pool (Table 4-4). -/
inductive Holder where
  | port (p : PortId) (n : Fin 4)
  | linePlay (l : LineId)
  | lineWrite (l : LineId)
  | localPlay
  | localWrite
  | entry (n : Fin 8)
deriving DecidableEq, Repr

/-- An open handle (4.5). -/
structure Handle where
  holder : Holder
  entry : Fin 128
  write : Bool
  pos : Nat
deriving DecidableEq, Repr

/-- The four port stream clients, in rotation order (R87). -/
structure StreamClient where
  port : PortId
  dir : Dir
deriving DecidableEq, Repr

/-- What a DRAM burst serves (R87). -/
inductive Service where
  | refresh
  | line (c : LineClient)
  | stream (c : StreamClient)
deriving DecidableEq, Repr

/-- The memory arbiter (R87). -/
structure Arbiter where
  refresh : Bool
  current : Option Service
  lastLine : LineClient
  lastStream : StreamClient
deriving DecidableEq, Repr

/-- The Message Store (04). The free list is `fresh` to `nBlocks - 1` and then `returned` (log 10). -/
structure Store where
  nBlocks : Nat
  fresh : Nat
  returned : List Nat
  reserve : Nat
  seqCounter : BitVec 32
  dir : Vector DirEntry 128
  pages : Vector PageEntry 256
  handles : List Handle
  dram : List Host.Cell
deriving DecidableEq, Repr

/-- The time-of-day clock (R89). -/
structure Tod where
  time : ClockTime
  isSet : Bool
deriving DecidableEq, Repr

/-! ## Voice path (05) -/

/-- What a context does (Table 5-1). -/
inductive Activity where
  | idle | recording | playing
deriving DecidableEq, Repr

/-- The settings of a context: Table 5-1 and Table 6-2. -/
structure VoiceSettings where
  recGain : Nat
  playGain : Nat
  rate : Rate
  code : Code
  dither : Dither
  threshold : Nat
  continueLate : Bool
  silenceTime : Nat
  maxLength : Nat
  screening : Bool
deriving DecidableEq, Repr

/-- A staging buffer of a voice context (R88): its bytes, the block it goes to or comes from, the storage samples it holds, and
the bursts served. -/
structure StageBuf where
  bytes : List Byte
  block : Option Nat
  samples : Nat
  served : Nat
deriving DecidableEq, Repr

/-- A voice context (Table 5-1), with the operation it carries out. `burst` says that the DRAM burst in progress serves the buffer
in transfer (R87). -/
structure VoiceCtx where
  settings : VoiceSettings
  activity : Activity
  hist : List Int
  held : List Int
  pos : Nat
  pred : Int
  step : Nat
  frameSum : Nat
  frameCount : Nat
  silenceRun : Nat
  runStart : Nat
  lineCount : Nat
  dropped : Nat
  blockSeq : Nat
  fill : Nat
  format : VoiceFormat
  dither : Dither
  silenceTime : Nat
  maxLength : Nat
  entry : Option (Fin 128)
  holder : Option Holder
  present : StageBuf
  other : StageBuf
  sampleIdx : Nat
  startClock : Nat
  lateDrop : Option Nat
  waiting : Bool
  primed : Bool
  ended : Bool
  burst : Bool
deriving DecidableEq, Repr

/-! ## Voice Message Controller (06) -/

/-- Session phases (Table 6-1). -/
inductive Phase where
  | none | greeting | announce | beep | recording | access | menu | playing | newGreeting | deliver
deriving DecidableEq, Repr

/-- Which items of the play list are offered (Table 6-1). -/
inductive Selection where
  | none | new | all
deriving DecidableEq, Repr

/-- An item of the play list (R128). -/
structure Item where
  entry : Fin 128
  seqNo : BitVec 32
deriving DecidableEq, Repr

/-- What the beep being sent is for (R116, R123, R127, R129). `thenNext` marks a signal after which the next item plays (log 21). -/
inductive Signal where
  | none
  | sessionBeep
  | recordBeep
  | greetingBeep
  | accept (thenNext : Bool)
  | refuseFirst (thenNext : Bool)
  | refuseGap (thenNext : Bool)
  | refuseSecond (thenNext : Bool)
deriving DecidableEq, Repr

/-- The voice session record of a line (Table 6-1). `offered` is what the present selection still offers after the cursor. -/
structure Session where
  phase : Phase
  mailbox : Fin 5
  entry : Option (Fin 128)
  classification : Bool
  codeDigits : List (Fin 10)
  wrongCodes : Nat
  codeTimer : Bool
  keyTimer : Bool
  playList : List Item
  selection : Selection
  cursor : Option Item
  offered : List Item
  qualified : Option Nat
deriving DecidableEq, Repr

/-- How a playback ended (R122). -/
inductive PlayEnd where
  | finished | stopped | replaced | messageGone | cleared
deriving DecidableEq, Repr

/-- The operation of a voice report (R125). -/
inductive VoiceOp where
  | none | greeting | announce | beep | record | play | deliver | retrieval
deriving DecidableEq, Repr

/-- A voice report (R125). -/
structure Report where
  op : VoiceOp
  port : Option PortId
  entry : Option (Fin 128)
  late : Nat
  playEnd : Option PlayEnd
  stop : Option StopReason
  kept : Option Bool
  truncated : Bool
deriving DecidableEq, Repr

/-- The LOCAL speaker holder (R120). -/
inductive Speaker where
  | none | context | bridge (l : LineId) | screen (l : LineId)
deriving DecidableEq, Repr

/-- What a Frame Channel gives its Signal Unit between two events of its transmitter: continuous ones, continuous flags, nothing
while it is held, or the frame or octets being sent (R132, R137, R140, R144). -/
inductive Steady where
  | ones | flags | nothing | busy
deriving DecidableEq, Repr

/-- What a line codec or the local codec is sent (R37, R93, Table 2-2): a sample, or what the Signal Unit makes itself. -/
inductive Sent where
  | sample (x : Int)
  | tone (t : Tone)
  | modulated (bits : Steady)
  | training
deriving DecidableEq, Repr

/-- The Voice Message Controller (06). -/
structure Vm where
  session : PerLine Session
  signal : PerLine Signal
  pendingRecord : PerLine (Option (Fin 128))
  report : PerCtx Report
  accessCode : Option (List (Fin 10))
  holder : Speaker
  localPort : Option PortId
  stamp : Nat
  lineOut : PerLine Sent
  speakerOut : Int
  micOut : Int
deriving DecidableEq, Repr

/-! ## Frame Channel (07) -/

/-- The block a channel is bound to (Table 7-1). -/
inductive ChanOwner where
  | none | fx | cl
deriving DecidableEq, Repr

inductive TxState where
  | off | idle | sending | draining | held
deriving DecidableEq, Repr

inductive RxState where
  | off | hunt | sync | frame | discard
deriving DecidableEq, Repr

inductive ChanMode where
  | framed | transparent
deriving DecidableEq, Repr

inductive Fill where
  | flags | marks
deriving DecidableEq, Repr

/-- The address filter (R142). -/
inductive AddrFilter where
  | off | exact | upper
deriving DecidableEq, Repr

/-- The content of a frame: octets handed over with the record, a fax control frame (log 15), or page octets delivered as the
frame is sent, by frame number and count (R136, R162). -/
inductive Content where
  | octets (bs : List Byte)
  | control (c : ControlFrame)
  | page (number : Nat) (count : Nat)
deriving DecidableEq, Repr

/-- The reference an owner gives a frame (R136). -/
inductive FrameRef where
  | control (serial : Nat)
  | pageFrame (n : Nat)
  | roundEnd (last : Bool)
  | linkControl
  | linkSetupAck
  | linkRate (retrain : Option (Fin 6))
  | linkClose
  | linkCloseAck
  | linkData (n : Nat)
deriving DecidableEq, Repr

/-- A frame record (R136). -/
structure FrameRec where
  address : Byte
  content : Content
  ref : FrameRef
deriving DecidableEq, Repr

/-- What a report says of a frame record (R136). -/
inductive TxVerdict where
  | sent | sentAborted | discarded
deriving DecidableEq, Repr

/-- What a channel tells its owner: a report on a frame record (R136), FRAME-LOST (R143), or DRY (R144). -/
inductive ChanReport where
  | tx (ref : FrameRef) (verdict : TxVerdict)
  | lost
  | dry
deriving DecidableEq, Repr

/-- The verdict of a receive record (R143). -/
inductive RxVerdict where
  | good | badCheck | aborted | tooLong | short | align
deriving DecidableEq, Repr

/-- A receive record (R143). -/
structure RxRecord where
  address : Option Byte
  content : Content
  verdict : RxVerdict
deriving DecidableEq, Repr

/-- The channel counts (Table 7-1), each staying at 65535. -/
structure ChanCounts where
  sent : Nat
  sentAborted : Nat
  discarded : Nat
  good : Nat
  badCheck : Nat
  aborted : Nat
  tooLong : Nat
  short : Nat
  align : Nat
  frameLost : Nat
deriving DecidableEq, Repr

/-- A Frame Channel (Table 7-1). `rxTooLong` tells a DISCARD for a TOO-LONG frame from a silent one; `nextTx` is the mode a
DRAINING transmitter takes when it has become OFF (R144); `rxLimit` is the receive limit of the frame being received (R133); `wire`
is the bits given to the Signal Unit last: a frame and its closing flag, an opening flag or an abort (R134, R137 to R140), a
transparent or plain octet (R43, R144), a page sent line by line (R160) or the zeros of a check (R151), and the opening flag of a frame
that follows them from IDLE; `reports` wait to be acted on
by the owner. -/
structure Channel where
  owner : ChanOwner
  txState : TxState
  txMode : ChanMode
  fill : Fill
  txQueue : List FrameRec
  onesRun : Nat
  rxState : RxState
  rxMode : ChanMode
  ownAddress : Byte
  filter : AddrFilter
  limit : Nat
  rxQueue : List RxRecord
  counts : ChanCounts
  rxAddress : Option Byte
  rxTooLong : Bool
  rxLimit : Nat
  nextTx : Option ChanMode
  dry : Bool
  wire : List Bool
  reports : List ChanReport
deriving DecidableEq, Repr

/-! ## Fax Controller (08) -/

inductive FaxRole where
  | none | receiver | sender
deriving DecidableEq, Repr

/-- The states of a fax session (Table 8-1). -/
inductive FaxState where
  | rOffer | rCheck | rPage | rVerdict | rBlock | rEnd
  | sWaitOffer | sChoose | sCheck | sPage | sBlock | sAwaitVerdict | sEnd
deriving DecidableEq, Repr

/-- The first thing that went wrong in a block (R163). -/
inductive BlockError where
  | verdict (v : RxVerdict)
  | late
  | frameLost
deriving DecidableEq, Repr

/-- Fax settings (Table 8-2). -/
structure FaxSettings where
  maxRate : Fin 6
  fine : Bool
  corrected : Bool
  minLineTime : Nat
  tolerance : Nat
  runLimit : Nat
  progress : Nat
  station : Option (List Byte)
  lossTime : Nat
deriving DecidableEq, Repr

/-- The fax session record (Table 8-1). -/
structure FaxSession where
  role : FaxRole
  state : Option FaxState
  offer : Option Offer
  choice : Option Choice
  farStation : Option (List Byte)
  lastFrame : Option ControlFrame
  timer : Bool
  repeats : Nat
  document : Option (Fin 128)
  page : Nat
  resent : Bool
  received : Nat
  badLines : Nat
  longestBad : Nat
  badRun : Nat
  block : Nat
  round : Nat
  lowered : Bool
  missing : List Nat
  error : Option BlockError
  kept : Nat
  outcome : Option FaxOutcome
deriving DecidableEq, Repr

/-- What a session is doing between control frames (R148, R151, R152, R154, R160, R162, R163). -/
inductive FaxStep where
  | idle
  | answerTone
  | slow
  | checkTraining
  | checkZeros
  | checkBits (bits : Nat) (ones : Nat)
  | pageTraining
  | pageData
  | blockTraining
  | blockData
deriving DecidableEq, Repr

/-- What a side does when its control frame is reported SENT (R149, R151, R152, R154, R161, R163, R167). -/
inductive AfterSent where
  | wait
  | check
  | page
  | block
  | finish (o : FaxOutcome)
deriving DecidableEq, Repr

/-- The working state of a session and of the line's fax client: see the fields' rules in INVENTORY.md. `serial` numbers the control
frames asked for, `refused` is one the channel refused, kept to be offered again (R136), and `burst` says that the DRAM burst in
progress serves this client (R87). -/
structure FaxWork where
  settings : FaxSettings
  step : FaxStep
  after : AfterSent
  aborts : Nat
  zeroRun : Nat
  lineBits : List Bool
  lineOver : Bool
  lineSpoiled : Bool
  started : Bool
  trained : Bool
  pendingEmpty : Nat
  pageEntry : Option (Fin 256)
  storeFull : Bool
  lastVerdict : Option PageVerdict
  blockOpen : Bool
  blockBase : Nat
  written : List (Nat × Nat)
  lastBlock : Option Nat
  pageDone : Bool
  toSend : List Nat
  roundEnds : Nat
  resumeBlock : Bool
  pageEnd : PageEnd
  unwritten : List Byte
  lineEnds : List Nat
  waitingLine : Option (List Byte)
  frameWrites : List (Nat × List Byte)
  txNext : Nat
  served : Nat
  burst : Bool
  serial : Nat
  refused : Option ControlFrame
deriving DecidableEq, Repr

/-! ## Checked Link (09) -/

/-- The link states (Table 9-1). -/
inductive LinkState where
  | setup | opened | heldByPeer | retraining | closing | plain | ended
deriving DecidableEq, Repr

/-- The reply timer and the proposal timer (R179, R184). -/
inductive ReplyTimer where
  | stopped | running | suspended
deriving DecidableEq, Repr

/-- A DATA frame held with its send number and payload (Table 9-1). -/
structure DataFrame where
  n : Nat
  payload : List Byte
deriving DecidableEq, Repr

/-- Link settings (Table 9-2). -/
structure LinkSettings where
  window : Nat
  payload : Nat
  ceiling : Fin 6
  plainFallback : Bool
  retryLimit : Nat
  replyTimer : Nat
  stepDown : Nat
  lossTime : Nat
deriving DecidableEq, Repr

/-- The link record (Table 9-1). A rate proposal carries its proposal timer. -/
structure LinkRec where
  state : LinkState
  returnState : Option LinkState
  role : LinkRole
  line : Option LineId
  window : Nat
  payload : Nat
  ceiling : Fin 6
  rate : Fin 6
  quality : Fin 64
  s : Nat
  outstanding : List DataFrame
  retries : Nat
  timer : ReplyTimer
  peerBusy : Bool
  ownBusy : Bool
  v : Nat
  ahead : List DataFrame
  ackDue : Bool
  history : List Bool
  goodRun : Nat
  proposal : Option (Fin 6 × ReplyTimer)
  closeCount : Nat
  built : BitVec 32
  sentAgain : BitVec 32
  octetsSent : BitVec 32
  octetsDelivered : BitVec 32
  dropped : BitVec 32
  outcome : Option LinkOutcome
deriving DecidableEq, Repr

/-- The setup timer of the link (R174, R175). -/
inductive SetupTimer where
  | stopped | interval | wait
deriving DecidableEq, Repr

/-- The working state of the link: frames waiting to be offered in the order of R173 (control, DATA sent again, new DATA), the
setup timer and CALL-UPs sent, the window and payload this side proposed (R175), the answer given to CALL-UP, the own ceiling in
force and the carrier-loss time. `departed` says that the CP has left the link, which then carries nothing for its streams (R195). -/
structure LinkWork where
  control : List FrameRec
  again : List FrameRec
  fresh : List FrameRec
  setup : SetupTimer
  callUps : Nat
  proposed : Option (Nat × Nat)
  ack : Option (List Byte)
  ownCeiling : Fin 6
  lossTime : Nat
  reached : Bool
  departed : Bool
deriving DecidableEq, Repr

/-! ## Streams (10) -/

inductive StreamState where
  | unbound | active | waiting | halted | finished
deriving DecidableEq, Repr

/-- What a stream serves (Table 10-1). -/
inductive Binding where
  | handle (n : Fin 4)
  | link
deriving DecidableEq, Repr

inductive HaltReason where
  | messageGone | creditExceeded | badFormat | storeFull | linkEnded
deriving DecidableEq, Repr

/-- The parser of a FAX-OUT write (R166): the octets of a header so far, or a section's lines. -/
inductive FaxParser where
  | header (got : List Byte)
  | lines (page : Fin 256) (left : Nat) (linesLeft : Nat) (inLine : Nat) (lastZero : Bool) (total : Nat) (bytes : Nat)
deriving DecidableEq, Repr

/-- An inbound stream (Table 10-1). `written` is the content already in the DRAM, `parsed` the content parsed; `burst` says that the
DRAM burst in progress serves this write (R87). -/
structure InStream where
  state : StreamState
  binding : Option Binding
  credit : Nat
  slots : List (List Byte)
  endSeen : Bool
  halt : Option HaltReason
  dma : Bool
  moved : BitVec 32
  written : Nat
  parsed : Nat
  parser : FaxParser
  burst : Bool
deriving DecidableEq, Repr

/-- An outbound stream (Table 10-1). `bursts` counts the bursts brought of the present voice block (R193); `burst` says that the DRAM
burst in progress serves this reading (R87). -/
structure OutStream where
  state : StreamState
  binding : Option Binding
  credit : Nat
  buffer : List Byte
  halt : Option HaltReason
  haltPending : Bool
  dma : Bool
  moved : BitVec 32
  bursts : Nat
  burst : Bool
deriving DecidableEq, Repr

/-- A port's two streams. -/
structure Streams where
  inb : InStream
  outb : OutStream
deriving DecidableEq, Repr

/-! ## Ports (11) -/

inductive PortState where
  | detached | attached | ready
deriving DecidableEq, Repr

/-- The result codes (Table 1-5). -/
inductive Result where
  | ok | accepted | badCommand | badArgument | notReady | lineHeld | busy | notFound | guarded | noRoom | noHandle | queueFull
  | wrongState | inUse
deriving DecidableEq, Repr

/-- The words of a change summary (Table 11-2). -/
inductive Word where
  | ring | state | extension | fault | caller | changed | rate | ended | page | progress | block | late | started | phase
  | directory | counts | space
deriving DecidableEq, Repr

/-- The subject of a notice (Table 11-2). -/
inductive Subject where
  | line (l : LineId)
  | entry (n : Fin 8)
  | link
  | ctx (c : CtxId)
  | store
  | stream (d : Dir)
deriving DecidableEq, Repr

/-- A notice-queue entry (R204). -/
structure Notice where
  cls : NoticeClass
  subject : Subject
  words : List Word
deriving DecidableEq, Repr

/-- The voice report a VOICE notice carries when it is read (R125, R205). -/
structure ReportView where
  phase : Option Phase
  report : Report
  length : Option Nat
deriving DecidableEq, Repr

/-- A NOTICE packet (R205). -/
structure NoticePacket where
  tag : BitVec 8
  notice : Notice
  voice : Option ReportView
deriving DecidableEq, Repr

/-- LINE STATUS (R3, R45; the mailbox is kept for it, R112, log 44). -/
structure LineView where
  state : LineState
  controller : Controller
  ringCount : Nat
  snapshot : Nat
  purpose : Purpose
  entryRef : Option (Fin 8)
  caller : Option CallerRecord
  ext : Bool
  loop : Bool
  changes : Changes
  dial : DialRec
  mailbox : Fin 5
deriving DecidableEq, Repr

/-- One entry of LIST CALLS (R63). -/
structure CallView where
  number : Fin 8
  state : QueueState
  purpose : QueuePurpose
  string : List DialSym
  blind : Bool
  message : Option (Fin 128)
  pref : LinePref
  line : Option LineId
  remaining : Nat
  attempts : Nat
  attemptLimit : Nat
  interval : Nat
  ringLimit : Nat
  outcome : Option CallOutcome
deriving DecidableEq, Repr

/-- STORE STATUS (R73). -/
structure StoreView where
  bytes : Nat
  nBlocks : Nat
  free : Nat
  reserve : Nat
  freeEntries : Nat
  freePages : Nat
  counts : List Nat
  handles : Nat
  clockSet : Bool
deriving DecidableEq, Repr

/-- One entry of LIST MESSAGES (R84). -/
structure MessageView where
  number : Fin 128
  seqNo : BitVec 32
  kind : Kind
  state : EntryState
  mailbox : Option (Fin 5)
  source : Source
  stamp : Option ClockTime
  length : Nat
  committed : Nat
  reviewed : Bool
  truncated : Bool
  guarded : Bool
deriving DecidableEq, Repr

/-- One page of MESSAGE INFO (R84): every field of Table 4-3. -/
structure PageView where
  entry : PageEntry
  firstBlock : Option Nat
  byteOffset : Nat
deriving DecidableEq, Repr

/-- MESSAGE INFO (R84): every field of Table 4-2 but the block list, and the pages of a fax document. -/
structure InfoView where
  number : Fin 128
  entry : DirEntry
  handles : Nat
  pages : List PageView
deriving DecidableEq, Repr

/-- FAX STATUS (R169). -/
structure FaxView where
  role : FaxRole
  state : Option FaxState
  choice : Option Choice
  offer : Option Offer
  farStation : Option (List Byte)
  document : Option (Fin 128)
  page : Nat
  kept : Nat
  resent : Bool
  received : Nat
  badLines : Nat
  longestBad : Nat
  verdict : Option PageVerdict
  block : Nat
  round : Nat
  lowered : Bool
  missing : List Nat
  error : Option BlockError
  outcome : Option FaxOutcome
  rate : Fin 6
  quality : Fin 64
  counts : ChanCounts
deriving DecidableEq, Repr

/-- LINK STATUS (R188). -/
structure LinkView where
  state : LinkState
  returnState : Option LinkState
  role : LinkRole
  line : Option LineId
  window : Nat
  payload : Nat
  ceiling : Fin 6
  rate : Fin 6
  quality : Fin 64
  s : Nat
  v : Nat
  outstanding : List Nat
  ahead : List Nat
  retries : Nat
  peerBusy : Bool
  ownBusy : Bool
  bad : Nat
  goodRun : Nat
  proposal : Option (Fin 6)
  built : BitVec 32
  sentAgain : BitVec 32
  octetsSent : BitVec 32
  octetsDelivered : BitVec 32
  dropped : BitVec 32
  outcome : Option LinkOutcome
  counts : Option ChanCounts
deriving DecidableEq, Repr

/-- STREAM STATUS (R190). -/
structure StreamView where
  dir : Dir
  state : StreamState
  binding : Option Binding
  credit : Nat
  slots : Nat
  held : Nat
  endSeen : Bool
  halt : Option HaltReason
  haltPending : Bool
  dma : Bool
  moved : BitVec 32
  entry : Option (Fin 128)
  position : Option Nat
  length : Option Nat
  committed : Option Nat
deriving DecidableEq, Repr

/-- The fields a REPLY carries besides its result code (Table 11-5). -/
inductive ReplyBody where
  | none
  | line (v : LineView)
  | cadence (table : List CadenceEntry) (onTime gapTime : Nat)
  | entryNumber (n : Nat)
  | calls (v : List CallView)
  | opened (handle : Fin 4) (kind : Kind) (state : EntryState) (length committed : Nat)
  | store (v : StoreView)
  | messages (v : List MessageView)
  | info (v : InfoView)
  | clock (t : ClockTime) (isSet : Bool)
  | voice (v : VoiceSettings)
  | faxSettings (v : FaxSettings)
  | fax (v : FaxView)
  | linkSettings (v : LinkSettings)
  | link (v : LinkView)
  | written (entry : Fin 128) (handle : Fin 4)
  | position (n : Nat)
  | stream (v : StreamView)
  | identity (vendor part : String) (revision bytes nBlocks : Nat) (port : PortId) (state : PortState)
  | pending (n : Nat)
deriving DecidableEq, Repr

/-- A REPLY packet (R202). -/
structure Reply where
  tag : BitVec 8
  code : Result
  body : ReplyBody
deriving DecidableEq, Repr

/-- A reply-queue entry: a REPLY, and the NOTICE that follows it (11, R205). A REPLY already read leaves its NOTICE. -/
structure ReplyEntry where
  reply : Option Reply
  notice : Option NoticePacket
deriving DecidableEq, Repr

/-- A COMMAND packet in a command queue (R201). -/
structure CommandPacket where
  tag : BitVec 8
  argsOk : Bool
  command : Command
deriving DecidableEq, Repr

/-- A STREAM-DATA packet to the master (Table 11-4, Table 11-5). -/
structure DataPacket where
  data : List Byte
  endMark : Bool
deriving DecidableEq, Repr

/-- A port controller (11). `creditOut` and `dataOut` are the stream packets waiting to cross, and `lastStream` the stream whose
packet crossed last (R202, log 8). -/
structure PortCtl where
  state : PortState
  cmdQueue : List CommandPacket
  replyQueue : List ReplyEntry
  noticeQueue : List Notice
  mask : List NoticeClass
  creditOut : List Nat
  dataOut : List DataPacket
  lastStream : Dir
deriving DecidableEq, Repr

/-! ## The whole block -/

/-- The input pins (00_scope 1.4). `loop` is loop voltage or continuity shown, `ext` an extension off hook. -/
structure Pins where
  loop : PerLine Bool
  ext : PerLine Bool
  present : Bool
  ppLink : Bool
  msz1 : Bool
  msz0 : Bool
deriving DecidableEq, Repr

/-- The state of the 2408. `pending` is the queue of waiting commands, first in, first out (log 1). -/
structure State where
  pending : List Instr
  standby : Bool
  pins : Pins
  lc : PerLine LineRec
  su : PerLine SignalUnit
  dq : PerLine Dialler
  queue : Vector QueueEntry 8
  createCounter : Nat
  finishCounter : Nat
  queueTime : Nat
  store : Store
  arb : Arbiter
  tod : Tod
  vp : PerCtx VoiceCtx
  vm : Vm
  fc : PerLine Channel
  fxSet : PerLine FaxSettings
  fx : PerLine FaxSession
  fw : PerLine FaxWork
  clSet : LinkSettings
  cl : LinkRec
  cw : LinkWork
  st : PerPort Streams
  pc : PerPort PortCtl
deriving DecidableEq, Repr

/-- Why a step faults. -/
inductive Fault where
  /-- Raised by BURST_END alone, when the burst in progress names a block the DRAM does not have. Safe: no run from reset
  reaches such a state (log 38). -/
  | outsideDram
deriving DecidableEq, Repr

/-- Why a step is refused. -/
inductive Refusal where
  /-- Raised by `exec` for a command that has no meaning yet. Safe: nothing is claimed of it. No arm answers it today. -/
  | notModelled (mnemonic : String)
deriving DecidableEq, Repr

/-! ## Right after RESETN is released -/

/-- An empty set of change flags. -/
def Changes.empty : Changes := ⟨false, false, false, false, false⟩

/-- The defaults of Table 1-9. -/
def LinePolicy.default : LinePolicy :=
  { answerMode := .auto, ringCount := 4, tollSaver := false, outgoing := true, callerId := true, typeValue := 0xA0,
    typeMask := 0xF0, setClock := .ifUnset, noteAll := false, extYield := true }

/-- The state the inputs give a line at a reset: FAULT without loop voltage, EXTENSION with an extension off hook, else IDLE (R1). -/
def restingState (loop ext : Bool) : LineState :=
  if !loop then .fault else if ext then .extension else .idle

/-- A line record at rest with the given policy (R1, R26). -/
def LineRec.atRest (policy : LinePolicy) (loop ext : Bool) : LineRec :=
  { state := restingState loop ext, controller := .none, ringCount := 0, snapshot := 0, caller := none, purpose := .none,
    entryRef := none, lastRingEnd := none, window := .closed, changes := ⟨.empty, .empty⟩, faultTimer := .stopped,
    loopBreak := false, extRemembered := false, hook := false, ringWait := false, ringGone := false, due := false,
    decided := false, callerOctets := [], callerFault := false, policy := policy }

/-- The default cadence table (Table 2-5). -/
def defaultCadence : Vector CadenceEntry 8 :=
  #v[⟨.dial, 1000, 10000, 0, 0, 1⟩, ⟨.busy, 400, 600, 400, 600, 2⟩, ⟨.ringback, 800, 2200, 2500, 4500, 1⟩,
     ⟨.congestion, 200, 300, 200, 300, 3⟩, ⟨.faxCalling, 400, 600, 2500, 3500, 1⟩, ⟨.spare, 20, 10000, 0, 10000, 0⟩,
     ⟨.spare, 20, 10000, 0, 10000, 0⟩, ⟨.spare, 20, 10000, 0, 10000, 0⟩]

/-- A classifier counter at 0 with no run start (R28, R29). -/
def CadenceCounter.zero : CadenceCounter := ⟨0, none, false, false⟩

/-- A Signal Unit after RESETN (R28). -/
def SignalUnit.initial : SignalUnit :=
  { mode := .quiet, returnMode := none, plain := false, training := false, rate := 0, ownCeiling := 5, peerCeiling := 5,
    quality := 0, carrier := false, watch := false, lossTime := 1500, lossTimer := false, detector := .none,
    cadence := defaultCadence, counters := Vector.replicate 8 CadenceCounter.zero, generation := none, lastTone := none,
    toneOnTime := 80, toneGapTime := 80, onAt := none, pairOn := none, offAt := none, onDuration := none, offDuration := none,
    heardKeypad := false, heardAnswer := false, heardData := false, heardSpeech := false, sampleClock := 0 }

/-- A dialler after RESETN (R45). -/
def Dialler.initial : Dialler :=
  { record := { owner := none, phase := .idle, string := [], position := 0, pulse := false, toneSeen := false, ringbacks := 0,
                limit := 8, purpose := .voice, outcome := none },
    step := .none, silence := false }

/-- An EMPTY call-queue entry: every other field absent or zero (R55). -/
def QueueEntry.empty : QueueEntry :=
  { state := .empty, order := 0, finish := none, string := [], blind := false, purpose := .ringOnly, message := none,
    pref := .either, line := none, earliest := 0, attempts := 0, attemptLimit := 0, interval := 0, ringLimit := 0,
    outcome := none }

/-- A FREE directory entry: it holds no blocks, pages or handles (R70). -/
def DirEntry.free : DirEntry :=
  { seqNo := 0, kind := .callNote, state := .free, mailbox := none, source := .loc, stamp := none, caller := none,
    station := none, format := none, length := 0, committed := 0, blocks := [], pageList := [], reviewed := false,
    truncated := false, guarded := false, stop := none, completed := false }

/-- A page entry that is not in use (R69). -/
def PageEntry.free : PageEntry :=
  { inUse := false, owner := 0, number := 0, resolution := .standard, committedLines := 0, received := 0, badLines := 0,
    longestBad := 0, verdict := .pending, start := 0, byteLength := 0 }

/-- The block count the straps give (Table 4-1). -/
def blocksOfStraps (msz1 msz0 : Bool) : Nat :=
  match msz1, msz0 with
  | false, true => 4096
  | true, false => 8192
  | _, _ => 2048

/-- The store formatted empty (R66), over a DRAM whose content is kept. -/
def Store.formatted (nBlocks reserve : Nat) (dram : List Host.Cell) : Store :=
  { nBlocks := nBlocks, fresh := 0, returned := [], reserve := reserve, seqCounter := 0, dir := Vector.replicate 128 .free,
    pages := Vector.replicate 256 .free, handles := [], dram := dram }

/-- The memory arbiter after RESETN: the last client of each class counts as served last (R66). -/
def Arbiter.initial : Arbiter := { refresh := false, current := none, lastLine := .fax .line1, lastStream := ⟨.pp, .outbound⟩ }

/-- The clock after RESETN (R90). -/
def Tod.initial : Tod := { time := ⟨1, 1, 0, 0, 0⟩, isSet := false }

/-- The default settings of a context (R93, Table 6-2). -/
def VoiceSettings.default : VoiceSettings :=
  { recGain := 16, playGain := 16, rate := .r8000, code := .q4, dither := .alt, threshold := 160, continueLate := false,
    silenceTime := 6000, maxLength := 120, screening := false }

/-- An empty staging buffer. -/
def StageBuf.empty : StageBuf := ⟨[], none, 0, 0⟩

/-- A context at IDLE with every arithmetic field at 0 (R93, R111). -/
def VoiceCtx.idle (v : VoiceSettings) : VoiceCtx :=
  { settings := v, activity := .idle, hist := [], held := [], pos := 0, pred := 0, step := 0, frameSum := 0, frameCount := 0,
    silenceRun := 0, runStart := 0, lineCount := 0, dropped := 0, blockSeq := 0, fill := 0, format := ⟨.q4, .r8000, none⟩,
    dither := .none, silenceTime := 0, maxLength := 0, entry := none, holder := none, present := .empty, other := .empty,
    sampleIdx := 0, startClock := 0, lateDrop := none, waiting := false, primed := false,
    ended := false, burst := false }

/-- A session record with no session, for the given mailbox (R112). -/
def Session.none (mailbox : Fin 5) : Session :=
  { phase := .none, mailbox := mailbox, entry := Option.none, classification := false, codeDigits := [], wrongCodes := 0,
    codeTimer := false, keyTimer := false, playList := [], selection := .none, cursor := Option.none, offered := [],
    qualified := Option.none }

/-- A voice report of operation NONE (R112). -/
def Report.none : Report := ⟨.none, Option.none, Option.none, 0, Option.none, Option.none, Option.none, false⟩

/-- The Voice Message Controller after RESETN (R112). -/
def Vm.initial : Vm :=
  { session := ⟨.none 0, .none 0⟩, signal := ⟨.none, .none⟩, pendingRecord := ⟨none, none⟩, report := ⟨.none, .none, .none⟩,
    accessCode := none, holder := .none, localPort := none, stamp := 0, lineOut := ⟨.sample 0, .sample 0⟩, speakerOut := 0,
    micOut := 0 }

/-- Every channel count at 0 (R132). -/
def ChanCounts.zero : ChanCounts := ⟨0, 0, 0, 0, 0, 0, 0, 0, 0, 0⟩

/-- A Frame Channel after RESETN (R132). -/
def Channel.initial : Channel :=
  { owner := .none, txState := .off, txMode := .framed, fill := .flags, txQueue := [], onesRun := 0, rxState := .off,
    rxMode := .framed, ownAddress := 0xFF, filter := .off, limit := 300, rxQueue := [], counts := .zero, rxAddress := none,
    rxTooLong := false, rxLimit := 300, nextTx := none, dry := false, wire := [], reports := [] }

/-- The defaults of Table 8-2. -/
def FaxSettings.default : FaxSettings :=
  { maxRate := 5, fine := true, corrected := true, minLineTime := 0, tolerance := 5, runLimit := 8, progress := 0,
    station := none, lossTime := 1500 }

/-- A fax session record with no session and nothing kept (R146). -/
def FaxSession.initial : FaxSession :=
  { role := .none, state := none, offer := none, choice := none, farStation := none, lastFrame := none, timer := false,
    repeats := 0, document := none, page := 0, resent := false, received := 0, badLines := 0, longestBad := 0, badRun := 0,
    block := 0, round := 0, lowered := false, missing := [], error := none, kept := 0, outcome := none }

/-- No fax work in progress. -/
def FaxWork.initial : FaxWork :=
  { settings := .default, step := .idle, after := .wait, aborts := 0, zeroRun := 0, lineBits := [], lineOver := false,
    lineSpoiled := false, started := false, trained := false, pendingEmpty := 0, pageEntry := none, storeFull := false,
    lastVerdict := none, blockOpen := false, blockBase := 0, written := [], lastBlock := none, pageDone := false, toSend := [],
    roundEnds := 0, resumeBlock := false, pageEnd := .last, unwritten := [], lineEnds := [], waitingLine := none,
    frameWrites := [], txNext := 0, served := 0, burst := false, serial := 0, refused := none }

/-- The defaults of Table 9-2. -/
def LinkSettings.default : LinkSettings :=
  { window := 7, payload := 128, ceiling := 5, plainFallback := true, retryLimit := 6, replyTimer := 1500, stepDown := 6,
    lossTime := 1500 }

/-- The link record after RESETN (R171). -/
def LinkRec.initial : LinkRec :=
  { state := .ended, returnState := none, role := .caller, line := none, window := 0, payload := 0, ceiling := 0, rate := 0,
    quality := 0, s := 0, outstanding := [], retries := 0, timer := .stopped, peerBusy := false, ownBusy := false, v := 0,
    ahead := [], ackDue := false, history := [], goodRun := 0, proposal := none, closeCount := 0, built := 0, sentAgain := 0,
    octetsSent := 0, octetsDelivered := 0, dropped := 0, outcome := none }

/-- No link work in progress. -/
def LinkWork.initial : LinkWork :=
  { control := [], again := [], fresh := [], setup := .stopped, callUps := 0, proposed := none, ack := none, ownCeiling := 5,
    lossTime := 1500, reached := false, departed := false }

/-- An UNBOUND inbound stream (R190). -/
def InStream.unbound : InStream :=
  { state := .unbound, binding := none, credit := 0, slots := [], endSeen := false, halt := none, dma := false, moved := 0,
    written := 0, parsed := 0, parser := .header [], burst := false }

/-- An UNBOUND outbound stream (R190). -/
def OutStream.unbound : OutStream :=
  { state := .unbound, binding := none, credit := 0, buffer := [], halt := none, haltPending := false, dma := false, moved := 0,
    bursts := 0, burst := false }

/-- Every notice class (Table 11-2). -/
def allClasses : List NoticeClass := [.line, .caller, .call, .link, .fax, .voice, .store, .stream]

/-- A port controller with empty queues and every class enabled, ATTACHED if its master is there (R199). -/
def PortCtl.fresh (attached : Bool) : PortCtl :=
  { state := if attached then .attached else .detached, cmdQueue := [], replyQueue := [], noticeQueue := [],
    mask := allClasses, creditOut := [], dataOut := [], lastStream := .inbound }

/-- The pins at the given input levels. -/
def Pins.ofLevels (v : PinLevels) : Pins :=
  { loop := ⟨v.loop0, v.loop1⟩, ext := ⟨v.ext0, v.ext1⟩, present := v.present, ppLink := v.ppLink, msz1 := v.msz1,
    msz0 := v.msz0 }

/-- The 2408 right after RESETN is released with the given input levels, over a DRAM whose content is kept, with the given
commands waiting: every block at its reset values (R1, R28, R45, R55, R66, R90, R93, R112, R132, R146, R171, R190, R199). -/
def State.afterResetn (v : PinLevels) (dram : List Host.Cell) (pending : List Instr) : State :=
  { pending := pending, standby := false, pins := .ofLevels v,
    lc := ⟨.atRest .default v.loop0 v.ext0, .atRest .default v.loop1 v.ext1⟩,
    su := ⟨.initial, .initial⟩, dq := ⟨.initial, .initial⟩, queue := Vector.replicate 8 .empty, createCounter := 0,
    finishCounter := 0, queueTime := 0, store := .formatted (blocksOfStraps v.msz1 v.msz0) 64 dram, arb := .initial,
    tod := .initial, vp := ⟨.idle .default, .idle .default, .idle .default⟩, vm := .initial,
    fc := ⟨.initial, .initial⟩, fxSet := ⟨.default, .default⟩, fx := ⟨.initial, .initial⟩, fw := ⟨.initial, .initial⟩,
    clSet := .default, cl := .initial, cw := .initial, st := ⟨⟨.unbound, .unbound⟩, ⟨.unbound, .unbound⟩⟩,
    pc := ⟨.fresh v.present, .fresh v.ppLink⟩ }

/-- The input levels of `State.reset`. DESIGN CHOICE, unsafe (log 2): the spec gives the reset for every level of the inputs. -/
def resetLevels : PinLevels :=
  { loop0 := true, loop1 := true, ext0 := false, ext1 := false, present := true, ppLink := true, msz1 := false, msz0 := false }

/-- The machine right after reset: the release of RESETN with the levels of `resetLevels`, nothing written in the DRAM and no
command waiting. -/
def State.reset : State := State.afterResetn resetLevels [] []

end Sys2Proof.Machine
end

