-- ==== Sys2Proof/Machine/Ops.lean ====
section
/-! DEFINITION. The named updates of the state, one for each record, and the way a master's command is taken from its port and
answered (spec 11, R201, R202). -/

namespace Sys2Proof.Machine

/-! ## Updates of one record -/

def State.updLc (s : State) (l : LineId) (f : LineRec → LineRec) : State := { s with lc := s.lc.set l (f (s.lc.get l)) }

def State.updSu (s : State) (l : LineId) (f : SignalUnit → SignalUnit) : State := { s with su := s.su.set l (f (s.su.get l)) }

def State.updDq (s : State) (l : LineId) (f : Dialler → Dialler) : State := { s with dq := s.dq.set l (f (s.dq.get l)) }

def State.updEntry (s : State) (n : Fin 8) (f : QueueEntry → QueueEntry) : State :=
  { s with queue := s.queue.set n (f s.queue[n]) }

def State.updStore (s : State) (f : Store → Store) : State := { s with store := f s.store }

def State.updCtx (s : State) (c : CtxId) (f : VoiceCtx → VoiceCtx) : State := { s with vp := s.vp.set c (f (s.vp.get c)) }

def State.updVm (s : State) (f : Vm → Vm) : State := { s with vm := f s.vm }

def State.updSession (s : State) (l : LineId) (f : Session → Session) : State :=
  s.updVm fun v => { v with session := v.session.set l (f (v.session.get l)) }

def State.updReport (s : State) (c : CtxId) (f : Report → Report) : State :=
  s.updVm fun v => { v with report := v.report.set c (f (v.report.get c)) }

def State.setSignal (s : State) (l : LineId) (g : Signal) : State :=
  s.updVm fun v => { v with signal := v.signal.set l g }

def State.updFc (s : State) (l : LineId) (f : Channel → Channel) : State := { s with fc := s.fc.set l (f (s.fc.get l)) }

def State.updFx (s : State) (l : LineId) (f : FaxSession → FaxSession) : State := { s with fx := s.fx.set l (f (s.fx.get l)) }

def State.updFw (s : State) (l : LineId) (f : FaxWork → FaxWork) : State := { s with fw := s.fw.set l (f (s.fw.get l)) }

def State.updCl (s : State) (f : LinkRec → LinkRec) : State := { s with cl := f s.cl }

def State.updCw (s : State) (f : LinkWork → LinkWork) : State := { s with cw := f s.cw }

def State.updSt (s : State) (p : PortId) (f : Streams → Streams) : State := { s with st := s.st.set p (f (s.st.get p)) }

def State.updIn (s : State) (p : PortId) (f : InStream → InStream) : State := s.updSt p fun t => { t with inb := f t.inb }

def State.updOut (s : State) (p : PortId) (f : OutStream → OutStream) : State := s.updSt p fun t => { t with outb := f t.outb }

def State.updPc (s : State) (p : PortId) (f : PortCtl → PortCtl) : State := { s with pc := s.pc.set p (f (s.pc.get p)) }

/-! ## Lines, ports, contexts -/

/-- The other port. -/
def otherPort : PortId → PortId
  | .cp => .pp
  | .pp => .cp

/-- The context of a line. -/
def ctxOf : LineId → CtxId
  | .line0 => .l0
  | .line1 => .l1

/-- The line of a context, or none for LOCAL. -/
def lineOfCtx : CtxId → Option LineId
  | .l0 => some .line0
  | .l1 => some .line1
  | .loc => none

/-- Both lines, line 0 first. -/
def allLines : List LineId := [.line0, .line1]

/-- Both ports, the CP first. -/
def allPorts : List PortId := [.cp, .pp]

/-- The three contexts. -/
def allCtxs : List CtxId := [.l0, .l1, .loc]

/-- Apply `f` for each element of a list, in order. -/
def forEach {α : Type} (f : α → State → State) : List α → State → State
  | [], s => s
  | a :: as, s => forEach f as (f a s)

/-- A port is in READY. -/
def isReady (s : State) (p : PortId) : Bool := (s.pc.get p).state == .ready

/-! ## Taking a command and answering it (R201, R202) -/

/-- A reply with a result code and no fields. -/
def justCode (r : Result) : Result × ReplyBody := (r, .none)

/-- HELLO and IDENTIFY, the two commands an ATTACHED port takes (Table 11-1). -/
def takenAttached : Command → Bool
  | .hello => true
  | .identify => true
  | _ => false

/-- The command's name is one of Table 11-3, so that its arguments can be judged (R202). -/
def knownName : Command → Bool
  | .unknown _ => false
  | _ => true

/-- Put a reply at the tail of a port's reply queue (R202). -/
def pushReply (p : PortId) (r : Reply) (s : State) : State :=
  s.updPc p fun c => { c with replyQueue := c.replyQueue ++ [⟨some r, none⟩] }

/-- Append a COMMAND packet to a port's command queue, unless intake has stopped (R201). -/
def queueCommand (p : PortId) (k : CommandPacket) (s : State) : State :=
  s.updPc p fun c => if c.cmdQueue.length < 4 then { c with cmdQueue := c.cmdQueue ++ [k] } else c

/-- Remove the head of a port's command queue: intake may go on (R201). -/
def dropCommand (p : PortId) (s : State) : State :=
  s.updPc p fun c => { c with cmdQueue := c.cmdQueue.tail }

/-- Carry out a command that has been taken, and queue its reply: NOT-READY in ATTACHED for all but HELLO and IDENTIFY (Table
11-1), BAD-ARGUMENT for arguments of the wrong form (R202), else what the owning chapter states (`body`). -/
def answerCommand (h : CmdHead) (c : Command) (body : State → State × Result × ReplyBody) (s : State) : State :=
  if (s.pc.get h.port).state = .attached ∧ takenAttached c = false then pushReply h.port ⟨h.tag, .notReady, .none⟩ s
  else if h.argsOk = false ∧ knownName c then pushReply h.port ⟨h.tag, .badArgument, .none⟩ s
  else
    let r := body s
    pushReply h.port ⟨h.tag, r.2.1, r.2.2⟩ r.1

/-- What taking a command finds at its port (R201, R202): whether it is carried out now, and from which queue. -/
inductive Intake where
  /-- The command is at the head of the command queue, and the reply queue has room. -/
  | fromQueue
  /-- The command queue is empty and the reply queue has room: the packet arrives and is taken at once. -/
  | direct
  /-- The packet waits in the command queue behind others, or for room in the reply queue. -/
  | queued
  /-- It is in the queue already and must wait, or no packet crosses (DETACHED, standby). -/
  | waits
deriving DecidableEq, Repr

/-- How a command row is taken (log 6): a port in DETACHED or in standby takes nothing (R199, R207); a command at the head of
the queue is taken when the reply queue has room (R202); a packet that meets an empty queue and room is taken at once; any other
packet is appended to the queue (R201). -/
def intake (h : CmdHead) (c : Command) (s : State) : Intake :=
  let k := s.pc.get h.port
  if s.standby ∨ k.state = .detached then .waits
  else
    let room := decide (k.replyQueue.length < 4)
    if k.cmdQueue.head? = some ⟨h.tag, h.argsOk, c⟩ then (if room then .fromQueue else .waits)
    else if k.cmdQueue = [] ∧ room then .direct
    else .queued

/-- Take a command of port `h.port` and carry it out (R202). -/
def carryOut (h : CmdHead) (c : Command) (body : State → State × Result × ReplyBody) (s : State) : State :=
  match intake h c s with
  | .waits => s
  | .queued => queueCommand h.port ⟨h.tag, h.argsOk, c⟩ s
  | .direct => answerCommand h c body s
  | .fromQueue => answerCommand h c body (dropCommand h.port s)

end Sys2Proof.Machine
end

