-- ==== Sys2Proof/Machine/Flags.lean ====
section
/-! DEFINITION. Notices and change flags: how a block's report reaches the masters (spec 11.3, R204) and the flags of the line
record (R2). -/

namespace Sys2Proof.Machine

/-! ## Notices (R204) -/

/-- The union of two summaries: the words of the first, then those of the second it lacks. -/
def joinWords (a b : List Word) : List Word := a ++ b.filter (fun w => !a.contains w)

/-- Whether two entries have the same class and subject. -/
def Notice.same (a b : Notice) : Bool := decide (a.cls = b.cls ∧ a.subject = b.subject)

/-- Join a notice to the pending entry of its class and subject, or append it at the tail (R204). -/
def enqueueNotice (n : Notice) : List Notice → List Notice
  | [] => [n]
  | m :: ms => if m.same n then { m with words := joinWords m.words n.words } :: ms else m :: enqueueNotice n ms

/-- Raise a notice towards one port: dropped unless the port is READY and the class enabled (R204). -/
def raiseTo (p : PortId) (n : Notice) (s : State) : State :=
  s.updPc p fun c =>
    if c.state = .ready ∧ n.cls ∈ c.mask then { c with noticeQueue := enqueueNotice n c.noticeQueue } else c

/-- Raise a notice towards both ports (Table 11-2). -/
def raiseBoth (n : Notice) (s : State) : State := raiseTo .pp n (raiseTo .cp n s)

/-- A FAX notice for a line (R169). -/
def faxNotice (l : LineId) (w : Word) (s : State) : State := raiseBoth ⟨.fax, .line l, [w]⟩ s

/-- A LINK notice (R188). -/
def linkNotice (w : Word) (s : State) : State := raiseBoth ⟨.link, .link, [w]⟩ s

/-- A VOICE notice for a context (R125). -/
def voiceNotice (c : CtxId) (w : Word) (s : State) : State := raiseBoth ⟨.voice, .ctx c, [w]⟩ s

/-- A CALL notice for a call-queue entry (R55). -/
def callNotice (n : Fin 8) (s : State) : State := raiseBoth ⟨.call, .entry n, [.changed]⟩ s

/-- A STREAM notice for a stream, towards its own port (R190). -/
def streamNotice (p : PortId) (d : Dir) (s : State) : State := raiseTo p ⟨.stream, .stream d, [.state]⟩ s

/-! ## Change flags (R2) -/

/-- The set with one flag added. -/
def Changes.add (c : Changes) : ChangeFlag → Changes
  | .ring => { c with ring := true }
  | .state => { c with state := true }
  | .caller => { c with caller := true }
  | .extension => { c with extension := true }
  | .fault => { c with fault := true }

/-- The set with one flag removed. -/
def Changes.drop (c : Changes) : ChangeFlag → Changes
  | .ring => { c with ring := false }
  | .state => { c with state := false }
  | .caller => { c with caller := false }
  | .extension => { c with extension := false }
  | .fault => { c with fault := false }

/-- The notice a flag raises: CALLER a CALLER notice, the others a LINE notice (R2). -/
def flagNotice (l : LineId) : ChangeFlag → Notice
  | .ring => ⟨.line, .line l, [.ring]⟩
  | .state => ⟨.line, .line l, [.state]⟩
  | .caller => ⟨.caller, .line l, [.caller]⟩
  | .extension => ⟨.line, .line l, [.extension]⟩
  | .fault => ⟨.line, .line l, [.fault]⟩

/-- Add a flag to one port's set, if the port is READY, and raise the notice (R2). -/
def addChangeTo (l : LineId) (f : ChangeFlag) (p : PortId) (s : State) : State :=
  if isReady s p then
    raiseTo p (flagNotice l f) (s.updLc l fun r => { r with changes := r.changes.set p ((r.changes.get p).add f) })
  else s

/-- Add a flag to the set of every READY port (R2). -/
def addChange (l : LineId) (f : ChangeFlag) (s : State) : State := addChangeTo l f .pp (addChangeTo l f .cp s)

/-- Empty a port's change flags on a line (R2). -/
def clearChanges (p : PortId) (l : LineId) (s : State) : State :=
  s.updLc l fun r => { r with changes := r.changes.set p .empty }

/-- Set a line's controller; a change adds STATE (Table 1-8). -/
def setController (l : LineId) (c : Controller) (s : State) : State :=
  if (s.lc.get l).controller = c then s else addChange l .state (s.updLc l fun r => { r with controller := c })

/-- Set a line's caller record; a change adds CALLER (Table 1-8, R24). -/
def setCaller (l : LineId) (c : Option CallerRecord) (s : State) : State :=
  if (s.lc.get l).caller = c then s else addChange l .caller (s.updLc l fun r => { r with caller := c })

end Sys2Proof.Machine
end

