-- ==== Sys2Proof/Machine/Memory.lean ====
section
/-! DEFINITION. The message DRAM (spec 04 4.1): a list of cells in one canonical form, addresses rising and no cell equal to what an
unlisted byte reads as (log 3). Block b holds the bytes from 512 b. -/

namespace Sys2Proof.Machine

/-- What the byte at an address reads as. -/
def memRead (a : Nat) : List Host.Cell → Byte
  | [] => Config.dramFill
  | (b, v) :: m => if a = b then v else memRead a m

/-- The memory with one byte written, in canonical form. -/
def memWrite (a : Nat) (v : Byte) : List Host.Cell → List Host.Cell
  | [] => if v = Config.dramFill then [] else [(a, v)]
  | (b, w) :: m =>
    if a < b then (if v = Config.dramFill then (b, w) :: m else (a, v) :: (b, w) :: m)
    else if a = b then (if v = Config.dramFill then m else (a, v) :: m)
    else (b, w) :: memWrite a v m

/-- Every address of the memory is above `a`, they rise, and no byte equals the fill. -/
def memFrom : Option Nat → List Host.Cell → Bool
  | _, [] => true
  | lo, (b, v) :: m => (match lo with | none => true | some a => decide (a < b)) && v != Config.dramFill && memFrom (some b) m

/-- The canonical form of the memory. -/
def Memory.wf (m : List Host.Cell) : Bool := memFrom none m

/-- Consecutive bytes written from an address. -/
def memWriteBytes (a : Nat) : List Byte → List Host.Cell → List Host.Cell
  | [], m => m
  | v :: vs, m => memWriteBytes (a + 1) vs (memWrite a v m)

/-- Consecutive bytes read from an address. -/
def memReadBytes (a : Nat) : Nat → List Host.Cell → List Byte
  | 0, _ => []
  | n + 1, m => memRead a m :: memReadBytes (a + 1) n m

/-- The DRAM address of a byte of a block list: byte `off` of the content lies in block `off / 512` (04 4.2). -/
def contentAddress (blocks : List BlockRef) (off : Nat) : Option Nat :=
  (blocks[off / Config.blockBytes]?).map fun b => b.num * Config.blockBytes + off % Config.blockBytes

/-- Write content bytes at an offset of an entry's content, each in the block that holds it. -/
def writeContent (blocks : List BlockRef) (off : Nat) : List Byte → List Host.Cell → List Host.Cell
  | [], m => m
  | v :: vs, m =>
    writeContent blocks (off + 1) vs (match contentAddress blocks off with | some a => memWrite a v m | none => m)

/-- Read content bytes from an offset of an entry's content. -/
def readContent (blocks : List BlockRef) (off : Nat) : Nat → List Host.Cell → List Byte
  | 0, _ => []
  | n + 1, m =>
    (match contentAddress blocks off with | some a => memRead a m | none => Config.dramFill) ::
      readContent blocks (off + 1) n m

end Sys2Proof.Machine
end

