-- ==== Sys2Proof/Machine/StoreOps.lean ====
section
/-! DEFINITION. The Message Store's own operations (spec 04): the free list, entries, pages, handles, cut-backs, and the STORE
notice that a change of the store raises. -/

namespace Sys2Proof

/-- A voice kind (Table 4-2). -/
def Kind.isVoice : Kind → Bool
  | .voice => true
  | .greeting => true
  | .announce => true
  | _ => false

/-- A fax kind (Table 4-2). -/
def Kind.isFax : Kind → Bool
  | .faxIn => true
  | .faxOut => true
  | _ => false

end Sys2Proof

namespace Sys2Proof.Machine

/-! ## The free list (R70, R71) -/

/-- The free list: blocks never taken, in ascending order, and then the blocks returned (R66, R70, log 10). -/
def Store.freeList (st : Store) : List Nat := List.range' st.fresh (st.nBlocks - st.fresh) ++ st.returned

/-- The free count: the length of the free list (R70). -/
def Store.free (st : Store) : Nat := (st.nBlocks - st.fresh) + st.returned.length

/-- Take the block at the head of the free list (R70). -/
def Store.takeBlock (st : Store) : Option (Nat × Store) :=
  if st.fresh < st.nBlocks then some (st.fresh, { st with fresh := st.fresh + 1 })
  else match st.returned with
    | [] => none
    | b :: bs => some (b, { st with returned := bs })

/-- Append blocks at the tail of the free list (R70). -/
def Store.giveBlocks (bs : List Nat) (st : Store) : Store := { st with returned := st.returned ++ bs }

/-- Update one directory entry. -/
def Store.updDir (st : Store) (n : Fin 128) (f : DirEntry → DirEntry) : Store := { st with dir := st.dir.set n (f st.dir[n]) }

/-- Allocate one block to an entry, appended at the end of its block list (R70). -/
def Store.allocate (n : Fin 128) (st : Store) : Option Store :=
  st.takeBlock.map fun r => r.2.updDir n fun e => { e with blocks := e.blocks ++ [⟨r.1, 0⟩] }

/-- A single unbound request: granted when the free count is above 0 (R71). -/
def Store.allocateUnbound (n : Fin 128) (st : Store) : Option Store := if 0 < st.free then st.allocate n else none

/-- A reserve-bound request: granted when the free count is above the fax reserve (R71). -/
def Store.allocateVoice (n : Fin 128) (st : Store) : Option Store := if st.reserve < st.free then st.allocate n else none

/-- Allocate `k` blocks one after another. -/
def Store.allocateMany (n : Fin 128) : Nat → Store → Option Store
  | 0, st => some st
  | k + 1, st => (st.allocate n).bind (Store.allocateMany n k)

/-- An area request of 32 blocks: all of them or none (R71). -/
def Store.allocateArea (n : Fin 128) (st : Store) : Option Store := if 32 ≤ st.free then Store.allocateMany n 32 st else none

/-! ## Counting -/

/-- The 128 entry numbers in order. -/
def allNumbers : List (Fin 128) := List.finRange 128

/-- The lowest-numbered FREE entry (R67). -/
def Store.freeEntry? (st : Store) : Option (Fin 128) := allNumbers.find? fun n => st.dir[n].state == .free

/-- The lowest-numbered free page entry (R69). -/
def Store.freePage? (st : Store) : Option (Fin 256) := (List.finRange 256).find? fun k => !st.pages[k].inUse

/-- The handles open on an entry (Table 4-2). -/
def Store.openCount (st : Store) (n : Fin 128) : Nat := (st.handles.filter fun h => h.entry == n).length

/-- A COMPLETE VOICE entry with REVIEWED clear, of a mailbox (R82). -/
def DirEntry.isNew (m : Fin 5) (e : DirEntry) : Bool :=
  e.state == .complete && e.kind == .voice && e.mailbox == some m && !e.reviewed

/-- A mailbox's new-message count (R82). -/
def Store.newCount (st : Store) (m : Fin 5) : Nat := (st.dir.toList.filter (DirEntry.isNew m)).length

/-- The five new-message counts. -/
def Store.newCounts (st : Store) : List Nat := (List.finRange 5).map st.newCount

/-- The store can take a voice message (R10). -/
def Store.takesVoice (st : Store) : Bool := st.freeEntry?.isSome && decide (st.reserve + 1 < st.free)

/-- The store can take a fax (R10). -/
def Store.takesFax (st : Store) : Bool := st.freeEntry?.isSome && st.freePage?.isSome

/-! ## STORE notices (R86) -/

/-- What a master sees of the directory's states and flags. -/
def Store.dirView (st : Store) : List (EntryState × Bool × Bool × Bool) :=
  st.dir.toList.map fun e => (e.state, e.reviewed, e.truncated, e.guarded)

/-- The words of the STORE notice for a change of the store (R86). -/
def storeWords (a b : Store) : List Word :=
  (if a.dirView = b.dirView then [] else [.directory]) ++ (if a.newCounts = b.newCounts then [] else [.counts]) ++
    (if decide (a.free ≤ a.reserve) = decide (b.free ≤ b.reserve) ∧ decide (a.free = 0) = decide (b.free = 0) ∧
        a.reserve = b.reserve then [] else [.space])

/-- Carry out a change of the store and raise its STORE notice (R86). -/
def onStore (f : Store → Store) (s : State) : State :=
  let t := s.updStore f
  match storeWords s.store t.store with
  | [] => t
  | ws => raiseBoth ⟨.store, .store, ws⟩ t

/-! ## Handles (R74, R76, R79) -/

/-- The handle of a holder. -/
def Store.handle? (st : Store) (h : Holder) : Option Handle := st.handles.find? fun k => k.holder == h

/-- Open a handle. -/
def Store.openHandle (h : Handle) (st : Store) : Store := { st with handles := st.handles ++ [h] }

/-- A port's handles in order. -/
def portHolders (p : PortId) : List Holder := [.port p 0, .port p 1, .port p 2, .port p 3]

/-- The number of a port's lowest free handle (R74). -/
def Store.freeHandle? (st : Store) (p : PortId) : Option (Fin 4) :=
  ([0, 1, 2, 3] : List (Fin 4)).find? fun n => (st.handle? (.port p n)).isNone

/-- Release a page entry: not in use, and out of its document's page list (R69). -/
def Store.releasePage (k : Fin 256) (st : Store) : Store :=
  let n := st.pages[k].owner
  { st.updDir n (fun e => { e with pageList := e.pageList.filter (· != k) }) with pages := st.pages.set k .free }

/-- Release several page entries. -/
def Store.releasePages : List (Fin 256) → Store → Store
  | [], st => st
  | k :: ks, st => Store.releasePages ks (st.releasePage k)

/-- The entry becomes FREE: its blocks go to the free list in block-list order and its pages are released (R70, R79, R80). -/
def Store.freeEntry (n : Fin 128) (st : Store) : Store :=
  let e := st.dir[n]
  ((st.releasePages e.pageList).giveBlocks (e.blocks.map (·.num))).updDir n fun _ => .free

/-- An entry that is to go becomes FREE when no handle is open on it, else DELETE-PENDING (R78, R80). -/
def Store.retire (n : Fin 128) (st : Store) : Store :=
  if st.openCount n = 0 then st.freeEntry n else st.updDir n fun e => { e with state := .deletePending }

/-- Close a holder's handle; the last close on a DELETE-PENDING entry frees it (R79). -/
def Store.closeHandle (h : Holder) (st : Store) : Store :=
  match st.handle? h with
  | none => st
  | some k =>
    let st := { st with handles := st.handles.filter fun x => x.holder != h }
    if st.dir[k.entry].state = .deletePending ∧ st.openCount k.entry = 0 then st.freeEntry k.entry else st

/-- Close several holders' handles. -/
def Store.closeHandles : List Holder → Store → Store
  | [], st => st
  | h :: hs, st => Store.closeHandles hs (st.closeHandle h)

/-- A VOICE entry's content has been reached to its end: REVIEWED is set while the entry is COMPLETE (or deleted after it
completed) and its length above 0 (R82). -/
def Store.markReached (n : Fin 128) (pos : Nat) (st : Store) : Store :=
  let e := st.dir[n]
  if e.kind = .voice ∧ (e.state = .complete ∨ e.state = .deletePending) ∧ 0 < e.length ∧ pos = e.length then
    st.updDir n fun e => { e with reviewed := true }
  else st

/-- Move a READ handle to a position (R76). -/
def Store.moveHandle (h : Holder) (pos : Nat) (st : Store) : Store :=
  match st.handle? h with
  | none => st
  | some k =>
    Store.markReached k.entry pos
      { st with handles := st.handles.map fun x => if x.holder = h then { x with pos := pos } else x }

/-- The start of the voice block that contains sample `t`, or the total where none does (R107). -/
def blockStart : List BlockRef → Nat → Nat → Nat
  | [], acc, _ => acc
  | b :: bs, acc, t => if t < acc + b.samples then acc else blockStart bs (acc + b.samples) t

/-- The block at a voice position: its index, number and sample count. -/
def blockAt : List BlockRef → Nat → Nat → Nat → Option (Nat × BlockRef)
  | [], _, _, _ => none
  | b :: bs, i, acc, t => if t < acc + b.samples then some (i, b) else blockAt bs (i + 1) (acc + b.samples) t

/-- Where a seek to `t` lands: clamped to the committed length, and for a voice entry at the start of its block (R76). -/
def DirEntry.seekTo (e : DirEntry) (t : Nat) : Nat :=
  let c := min t e.committed
  if e.kind.isVoice then (if e.committed ≤ c then e.committed else blockStart e.blocks 0 c) else c

/-- Seek a READ handle (R76). -/
def Store.seek (h : Holder) (t : Nat) (st : Store) : Store :=
  match st.handle? h with
  | none => st
  | some k => st.moveHandle h (st.dir[k.entry].seekTo t)

/-! ## Entries (R67, R77) -/

/-- A writer's request for a new entry (R67). -/
structure NewEntry where
  kind : Kind
  source : Source
  mailbox : Option (Fin 5)
  station : Option (List Byte)
  format : Option VoiceFormat
  caller : Option CallerRecord
  holder : Holder

/-- Make a new entry in WRITING with a WRITE handle, in the lowest FREE slot (R67). -/
def Store.newEntry (tod : Tod) (r : NewEntry) (st : Store) : Option (Fin 128 × Store) :=
  st.freeEntry?.map fun n =>
    let e : DirEntry :=
      { seqNo := st.seqCounter, kind := r.kind, state := .writing, mailbox := r.mailbox, source := r.source,
        stamp := if tod.isSet then some tod.time else none, caller := r.caller, station := r.station, format := r.format,
        length := 0, committed := 0, blocks := [], pageList := [], reviewed := false, truncated := false, guarded := false,
        stop := none, completed := false }
    (n, ({ st with seqCounter := st.seqCounter + 1 }.updDir n fun _ => e).openHandle ⟨r.holder, n, true, 0⟩)

/-- One entry precedes another in creation order (R67). -/
def precedes (a b : BitVec 32) : Bool := decide ((b - a).toNat < 2147483648)

/-- Insert an entry number in creation order. -/
def insertOrder (st : Store) (n : Fin 128) : List (Fin 128) → List (Fin 128)
  | [] => [n]
  | m :: ms => if precedes st.dir[n].seqNo st.dir[m].seqNo then n :: m :: ms else m :: insertOrder st n ms

/-- Entry numbers in ascending creation sequence (R67, R84). -/
def sortOrder (st : Store) : List (Fin 128) → List (Fin 128)
  | [] => []
  | n :: ns => insertOrder st n (sortOrder st ns)

/-- A call note in a slot, COMPLETE at once (R68). -/
def Store.putNote (tod : Tod) (l : LineId) (caller : Option CallerRecord) (n : Fin 128) (st : Store) : Store :=
  let e : DirEntry :=
    { DirEntry.free with seqNo := st.seqCounter, kind := .callNote, state := .complete, completed := true, source := .line l,
                         stamp := if tod.isSet then some tod.time else none, caller := caller }
  { st with seqCounter := st.seqCounter + 1 }.updDir n fun _ => e

/-- Make or decline a call note: the lowest FREE slot, else the slot of the oldest reviewed CALLNOTE, else none (R68). -/
def Store.callNote (tod : Tod) (l : LineId) (caller : Option CallerRecord) (st : Store) : Store :=
  match st.freeEntry? with
  | some n => st.putNote tod l caller n
  | none =>
    match sortOrder st (allNumbers.filter fun n =>
        st.dir[n].kind == .callNote && st.dir[n].state == .complete && st.dir[n].reviewed) with
    | [] => st
    | n :: _ => (st.freeEntry n).putNote tod l caller n

/-- The WRITE handle of an entry is closed. -/
def Store.closeWrite (n : Fin 128) (st : Store) : Store :=
  { st with handles := st.handles.filter fun h => !(h.entry == n && h.write) }

/-- A write completes, steps 1 to 5 (R77). -/
def Store.complete (n : Fin 128) (stop : Option StopReason) (st : Store) : Store :=
  (st.updDir n fun e => { e with committed := e.length, state := .complete, stop := stop, completed := true }).closeWrite n

/-- After a VOICE entry has completed, a reader already at its length sets REVIEWED (R82). -/
def Store.reachedAtEnd (n : Fin 128) (st : Store) : Store :=
  if st.handles.any fun h => h.entry == n && !h.write && h.pos == st.dir[n].length then st.markReached n st.dir[n].length else st

/-- Update a WRITING entry's lengths. -/
def Store.setLength (n : Fin 128) (length committed : Nat) (st : Store) : Store :=
  st.updDir n fun e => { e with length := length, committed := committed }

/-! ## Pages (R69) -/

/-- A page entry for a document, beginning at byte `start` (R69). -/
def Store.newPage (n : Fin 128) (res : Resolution) (start : Nat) (st : Store) : Option (Fin 256 × Store) :=
  if 64 ≤ st.dir[n].pageList.length then none
  else st.freePage?.map fun k =>
    (k, { st.updDir n (fun e => { e with pageList := e.pageList ++ [k] }) with
            pages := st.pages.set k { PageEntry.free with inUse := true, owner := n, number := st.dir[n].pageList.length + 1,
                                                          resolution := res, start := start } })

/-- Update one page entry. -/
def Store.updPage (k : Fin 256) (f : PageEntry → PageEntry) (st : Store) : Store :=
  { st with pages := st.pages.set k (f st.pages[k]) }

/-! ## Cut-back (R72) -/

/-- The blocks that hold the first `n` samples, the last count reduced, and the block numbers beyond them. -/
def cutVoice : Nat → List BlockRef → List BlockRef × List Nat
  | _, [] => ([], [])
  | n, b :: bs =>
    if n = 0 then ([], (b :: bs).map (·.num))
    else if b.samples ≤ n then
      let r := cutVoice (n - b.samples) bs
      (b :: r.1, r.2)
    else ([{ b with samples := n }], bs.map (·.num))

/-- A number as bytes, low byte first (11 11.6). -/
def leBytes : Nat → Nat → List Byte
  | 0, _ => []
  | k + 1, v => BitVec.ofNat 8 v :: leBytes k (v / 256)

/-- A number from bytes, low byte first (11 11.6). -/
def leNat : List Byte → Nat
  | [] => 0
  | b :: bs => b.toNat + 256 * leNat bs

/-- Write a block's sample count into its header in the DRAM (Table 11-7). -/
def putCount (b : BlockRef) (m : List Host.Cell) : List Host.Cell :=
  memWriteBytes (b.num * Config.blockBytes + 4) (leBytes 2 b.samples) m

/-- Shorten a WRITING entry to a new length: blocks beyond it go to the free list, the committed length and the READ handles
follow (R72). A reader beyond the cut goes back to the start of the block the cut fell in (log 30). -/
def Store.cutBack (n : Fin 128) (len : Nat) (st : Store) : Store :=
  let e := st.dir[n]
  let r := if e.kind.isVoice then cutVoice len e.blocks
    else (e.blocks.take (ceilDiv len Config.blockBytes), (e.blocks.drop (ceilDiv len Config.blockBytes)).map (·.num))
  let committed := min e.committed len
  let e' := { e with length := len, committed := committed, blocks := r.1 }
  let dram := match e.kind.isVoice, r.1.getLast? with
    | true, some b => if e.blocks.contains b then st.dram else putCount b st.dram
    | _, _ => st.dram
  let back := fun (h : Handle) =>
    if h.entry = n ∧ h.write = false ∧ committed < h.pos then
      { h with pos := if e.kind.isVoice then blockStart e.blocks 0 committed else committed }
    else h
  ({ st with dram := dram, handles := st.handles.map back }.updDir n fun _ => e').giveBlocks r.2

end Sys2Proof.Machine
end

