-- ==== Sys2Proof/Machine/QueueOps.lean ====
section
/-! DEFINITION. The call queue's own operations (spec 03 3.5 to 3.9) and what the store does through it: deletion (R64, R80) and the
completion of a write (R77, R81). -/

namespace Sys2Proof.Machine

/-! ## Changes of an entry (R55) -/

/-- What a CALL notice follows: state, attempts made, earliest start, last outcome (R55). -/
def QueueEntry.seen (e : QueueEntry) : QueueState × Nat × Nat × Option CallOutcome :=
  (e.state, e.attempts, e.earliest, e.outcome)

/-- Change a call-queue entry, raising its CALL notice if a master would see it (R55). -/
def changeEntry (n : Fin 8) (f : QueueEntry → QueueEntry) (s : State) : State :=
  let t := s.updEntry n f
  if s.queue[n].seen = t.queue[n].seen then t else callNotice n t

/-- An active state (R55). -/
def QueueState.active : QueueState → Bool
  | .waiting => true
  | .dialling => true
  | .inCall => true
  | _ => false

/-- A finished state (R55). -/
def QueueState.finished : QueueState → Bool
  | .done => true
  | .failed => true
  | .cancelled => true
  | _ => false

/-- Entry to a finished state: the line becomes absent, the next finish order is given and the handle is closed (R55). -/
def finishEntry (n : Fin 8) (q : QueueState) (f : QueueEntry → QueueEntry) (s : State) : State :=
  let k := s.finishCounter
  let s := changeEntry n (fun e => { f e with state := q, finish := some k, line := none }) s
  onStore (Store.closeHandle (.entry n)) { s with finishCounter := k + 1 }

/-- The message an entry refers to is DELETE-PENDING (R61). -/
def messageLeaving (n : Fin 8) (s : State) : Bool :=
  match s.queue[n].message with
  | none => false
  | some m => s.store.dir[m].state == .deletePending

/-- A counted failure (R61), with the outcome recorded. -/
def countedFailure (n : Fin 8) (o : CallOutcome) (s : State) : State :=
  let e := s.queue[n]
  if messageLeaving n s then
    finishEntry n .cancelled (fun e => { e with attempts := e.attempts + 1, outcome := some .documentGone }) s
  else if e.attempts + 1 < e.attemptLimit then
    changeEntry n (fun e => { e with state := .waiting, attempts := e.attempts + 1, line := none, outcome := some o,
                                     earliest := s.queueTime + 60 * e.interval }) s
  else finishEntry n .failed (fun e => { e with attempts := e.attempts + 1, outcome := some o }) s

/-- The entry becomes DONE, counting one attempt, with an outcome or keeping the one it has (R60). -/
def doneEntry (n : Fin 8) (o : Option CallOutcome) (s : State) : State :=
  finishEntry n .done (fun e => { e with attempts := e.attempts + 1, outcome := o.orElse fun _ => e.outcome }) s

/-- The entry becomes CANCELLED by CANCEL CALL or a cancelled dial (R62). -/
def cancelEntry (n : Fin 8) (s : State) : State :=
  finishEntry n .cancelled (fun e => { e with outcome := some (.dial .cancelled) }) s

/-- The entry whose call a line carries in state IN-CALL (R60). -/
def callOf (l : LineId) (s : State) : Option (Fin 8) :=
  match (s.lc.get l).entryRef with
  | none => none
  | some n => if s.queue[n].state = .inCall ∧ s.queue[n].line = some l then some n else none

/-- The end of a fax session reaches its queue entry (R60). -/
def faxToQueue (l : LineId) (o : FaxOutcome) (s : State) : State :=
  match callOf l s with
  | none => s
  | some n =>
    if s.queue[n].purpose ≠ .faxSend then s
    else if o = .done then doneEntry n (some (.fax o)) s else countedFailure n (.fax o) s

/-- A link that reached OPEN or PLAIN makes its queue entry DONE (R60). -/
def linkReached (l : LineId) (s : State) : State :=
  match callOf l s with
  | none => s
  | some n => if s.queue[n].purpose = .data then doneEntry n none s else s

/-- A link that ended before OPEN or PLAIN reaches its queue entry (R60): NO-PEER makes it FAILED, others are counted failures. -/
def linkToQueue (l : LineId) (o : LinkOutcome) (s : State) : State :=
  match callOf l s with
  | none => s
  | some n =>
    if s.queue[n].purpose ≠ .data then s
    else if o = .noPeer then
      finishEntry n .failed (fun e => { e with attempts := e.attempts + 1, outcome := some (.link o) }) s
    else countedFailure n (.link o) s

/-- A delivery whose line clears, is taken over or is intercepted is DONE (R60, R16, R19). -/
def deliveryDone (l : LineId) (s : State) : State :=
  match callOf l s with
  | none => s
  | some n => if s.queue[n].purpose = .voiceDeliver then doneEntry n none s else s

/-! ## Deletion and completion (R64, R77, R80, R81) -/

/-- A WAITING entry that refers to a message is CANCELLED with DOCUMENT-GONE (R64). -/
def cancelIfWaiting (m : Fin 128) (n : Fin 8) (s : State) : State :=
  if s.queue[n].state = .waiting ∧ s.queue[n].message = some m then
    finishEntry n .cancelled (fun e => { e with outcome := some .documentGone }) s
  else s

/-- The deletion of an entry that passed the store's checks: the queue first, then FREE or DELETE-PENDING (R64, R80). DESIGN CHOICE,
unsafe (log 54): where several WAITING entries are cancelled, they take their finish orders by entry number. -/
def deleteEntry (m : Fin 128) (s : State) : State :=
  onStore (Store.retire m) (forEach (cancelIfWaiting m) [0, 1, 2, 3, 4, 5, 6, 7] s)

/-- The entry is replaced by the completion of entry `n` (R81). -/
def isReplacedBy (n m : Fin 128) (st : Store) : Bool :=
  m != n && st.dir[m].state == .complete && st.dir[m].kind == st.dir[n].kind && st.dir[m].mailbox == st.dir[n].mailbox

/-- A write completes (R77), a VOICE entry's reader already at its length sets REVIEWED once the count has risen (R82), and a GREETING
or ANNOUNCE replaces the older one (R81). Each change of a count raises its own STORE notice (R82, R86). -/
def completeWrite (n : Fin 128) (stop : Option StopReason) (s : State) : State :=
  let s := onStore (Store.reachedAtEnd n) (onStore (Store.complete n stop) s)
  match s.store.dir[n].kind with
  | .greeting => forEach deleteEntry (allNumbers.filter fun m => isReplacedBy n m s.store) s
  | .announce => forEach deleteEntry (allNumbers.filter fun m => isReplacedBy n m s.store) s
  | _ => s

/-- Ask for a call note for a line, with its caller record (R68). -/
def askCallNote (l : LineId) (s : State) : State :=
  onStore (Store.callNote s.tod l (s.lc.get l).caller) s

end Sys2Proof.Machine
end

