-- ==== Sys2Proof/Machine/FrameBits.lean ====
section
/-! DEFINITION. The bits of a frame on the line: order of sending, zero insertion, the check, and how a received frame is judged
(spec 07 R134, R135, R143). -/

namespace Sys2Proof.Machine

/-- The bits of an octet, least significant first (R134). -/
def octetBits (b : Byte) : List Bool :=
  [b.getLsbD 0, b.getLsbD 1, b.getLsbD 2, b.getLsbD 3, b.getLsbD 4, b.getLsbD 5, b.getLsbD 6, b.getLsbD 7]

/-- The bits of a run of octets. -/
def octetsBits (bs : List Byte) : List Bool := bs.flatMap octetBits

/-- A flag: zero, six ones, zero (R134). -/
def flagBits : List Bool := [false, true, true, true, true, true, true, false]

/-- The abort a transmitter sends: eight ones (R134, R138, R139). -/
def abortBits : List Bool := [true, true, true, true, true, true, true, true]

/-- The octet of eight bits, least significant first. -/
def octetOf (a b c d e f g h : Bool) : Byte :=
  BitVec.ofBool h ++ BitVec.ofBool g ++ BitVec.ofBool f ++ BitVec.ofBool e ++ BitVec.ofBool d ++ BitVec.ofBool c ++
    BitVec.ofBool b ++ BitVec.ofBool a

/-- The whole octets of a bit sequence; bits left over are dropped. -/
def bitsOctets : List Bool → List Byte
  | a :: b :: c :: d :: e :: f :: g :: h :: rest => octetOf a b c d e f g h :: bitsOctets rest
  | _ => []

/-- Zero insertion, `k` consecutive ones having been sent (R134). -/
def stuffFrom (k : Nat) : List Bool → List Bool
  | [] => []
  | true :: bs => if k = 4 then true :: false :: stuffFrom 0 bs else true :: stuffFrom (k + 1) bs
  | false :: bs => false :: stuffFrom 0 bs

/-- The bits between the flags as sent: a zero after every fifth consecutive one (R134). -/
def stuff (bs : List Bool) : List Bool := stuffFrom 0 bs

/-- Zero deletion, `k` consecutive ones having been received (R141). -/
def destuffFrom (k : Nat) : List Bool → List Bool
  | [] => []
  | true :: bs => true :: destuffFrom (k + 1) bs
  | false :: bs => if k = 5 then destuffFrom 0 bs else false :: destuffFrom 0 bs

/-- The data bits of a received frame: the zero after five ones is deleted (R141). -/
def destuff (bs : List Bool) : List Bool := destuffFrom 0 bs

/-- One bit of the check (R135): feedback from the low-order bit, shift, and the reversed polynomial 0x8408. -/
def crcBit (r : BitVec 16) (b : Bool) : BitVec 16 :=
  if (r.getLsbD 0 != b) then (r >>> 1) ^^^ 0x8408#16 else r >>> 1

/-- The check register after a bit sequence, from all ones (R135). -/
def crc (bs : List Bool) : BitVec 16 := bs.foldl crcBit 0xFFFF#16

/-- The two check octets of a run of octets: the complement of the register, low half first (R135). -/
def checkOctets (bs : List Byte) : List Byte :=
  let r := ~~~ crc (octetsBits bs)
  [r.setWidth 8, (r >>> 8).setWidth 8]

/-- The bits of a frame between its flags: address, content and check octets, with zero insertion (R134, R135). -/
def frameBits (address : Byte) (content : List Byte) : List Bool :=
  let body := address :: content
  stuff (octetsBits (body ++ checkOctets body))

/-- The verdict of a frame that reaches its closing flag, from its data bits (R143). -/
def judgeBits (bits : List Bool) : RxVerdict :=
  if bits.length < 24 then .short
  else if bits.length % 8 ≠ 0 then .align
  else
    let os := bitsOctets bits
    if checkOctets (os.take (os.length - 2)) = os.drop (os.length - 2) then .good else .badCheck

/-- The receive record of a frame that reaches its closing flag, from its data bits (R143). -/
def recordOf (bits : List Bool) : RxRecord :=
  let os := bitsOctets bits
  let v := judgeBits bits
  { address := os.head?,
    content := .octets (match v with | .good | .badCheck => (os.take (os.length - 2)).tail | _ => []), verdict := v }

end Sys2Proof.Machine
end

