-- ==== Sys2Proof/Machine/ChannelOps.lean ====
section
/-! DEFINITION. The Frame Channel's own operations (spec 07): binding, the transmitter, the receiver. -/

namespace Sys2Proof.Machine

/-! ## Counts and reports -/

/-- A count that stays at 65535 (Table 7-1). -/
def bump (n : Nat) : Nat := if n < 65535 then n + 1 else n

/-- The counts with one more report of a verdict (R136). -/
def countTx (v : TxVerdict) (k : ChanCounts) : ChanCounts :=
  match v with
  | .sent => { k with sent := bump k.sent }
  | .sentAborted => { k with sentAborted := bump k.sentAborted }
  | .discarded => { k with discarded := bump k.discarded }

/-- The counts with one more record of a verdict (R143). -/
def countRx (v : RxVerdict) (k : ChanCounts) : ChanCounts :=
  match v with
  | .good => { k with good := bump k.good }
  | .badCheck => { k with badCheck := bump k.badCheck }
  | .aborted => { k with aborted := bump k.aborted }
  | .tooLong => { k with tooLong := bump k.tooLong }
  | .short => { k with short := bump k.short }
  | .align => { k with align := bump k.align }

/-- One report on a frame record (R136). -/
def Channel.report (v : TxVerdict) (r : FrameRec) (c : Channel) : Channel :=
  { c with counts := countTx v c.counts, reports := c.reports ++ [.tx r.ref v] }

/-- Reports on several records, in queue order. -/
def Channel.reportAll (v : TxVerdict) : List FrameRec → Channel → Channel
  | [], c => c
  | r :: rs, c => Channel.reportAll v rs (c.report v r)

/-- Remove the head record of the transmit queue and report it. -/
def Channel.finishHead (v : TxVerdict) (c : Channel) : Channel :=
  match c.txQueue with
  | [] => c
  | r :: rs => { c with txQueue := rs }.report v r

/-- Remove every record of the transmit queue with DISCARDED reports. -/
def Channel.discardAll (c : Channel) : Channel := Channel.reportAll .discarded c.txQueue { c with txQueue := [] }

/-- Remove every record behind the head with DISCARDED reports. -/
def Channel.discardBehind (c : Channel) : Channel :=
  Channel.reportAll .discarded c.txQueue.tail { c with txQueue := c.txQueue.take 1 }

/-! ## Binding (R133) -/

/-- Bind: counts 0, both queues empty, both directions OFF in FRAMED. -/
def Channel.bind (o : ChanOwner) (address : Byte) (filter : AddrFilter) (limit : Nat) (fill : Fill) (c : Channel) : Channel :=
  { c with owner := o, ownAddress := address, filter := filter, limit := clampNat 3 300 limit, fill := fill, counts := .zero,
           txQueue := [], rxQueue := [], txState := .off, rxState := .off, txMode := .framed, rxMode := .framed, onesRun := 0,
           rxAddress := none, rxTooLong := false, rxLimit := clampNat 3 300 limit, nextTx := none, dry := false, wire := [],
           reports := [] }

/-- Unbind: the transmit records are discarded, the receive queue emptied, both directions OFF. The counts are kept. The owner
has ended its session, so no report waits for it. -/
def Channel.unbind (c : Channel) : Channel :=
  { c.discardAll with owner := .none, rxQueue := [], txState := .off, rxState := .off, txMode := .framed, rxMode := .framed,
                      onesRun := 0, rxAddress := none, rxTooLong := false, nextTx := none, dry := false, reports := [] }

/-- The owner changes what a bind carried, each value clamped, those it does not name left (R133). The filter and the own address
are read when an address octet arrives and the limit when a frame begins, so each applies from the next. No owner's chapter names a
moment at which its owner does so. -/
def Channel.configure (address : Option Byte) (filter : Option AddrFilter) (limit : Option Nat) (fill : Option Fill) (c : Channel) :
    Channel :=
  if c.owner = .none then c
  else { c with ownAddress := address.getD c.ownAddress, filter := filter.getD c.filter,
                limit := (limit.map (clampNat 3 300)).getD c.limit, fill := fill.getD c.fill }

/-! ## Transmitter (R136 to R140, R144) -/

/-- What the transmitter gives its Signal Unit until its next event (R132, R137, R140). -/
def Channel.steady (c : Channel) : Steady :=
  match c.txState with
  | .off => .ones
  | .idle => (match c.fill with | .flags => .flags | .marks => .ones)
  | .held => .nothing
  | .sending => .busy
  | .draining => .busy

/-- The opening flag of the frame a transmitter has just turned to; no bits where it turned to none (R137, R138, R140). -/
def Channel.opening (c : Channel) : List Bool := if c.txState = .sending ∧ c.txMode = .framed then flagBits else []

/-- The transmitter turns to the frame at the head of its queue, if it has one, with an opening flag. -/
def Channel.openFrame (c : Channel) : Channel :=
  if c.txState = .sending ∧ c.txMode = .framed then { c with wire := flagBits } else c

/-- Where a transmitter that is not held starts in a mode: IDLE, SENDING with records queued, or SENDING in TRANSPARENT. -/
def startState (c : Channel) : TxState :=
  match c.txMode with
  | .transparent => .sending
  | .framed => if c.txQueue = [] then .idle else .sending

/-- Start an OFF transmitter in a mode (R137, R144). DESIGN CHOICE, unsafe (log 75): while the Signal Unit holds the transmit side it
starts HELD. -/
def Channel.startTx (hold : Bool) (m : ChanMode) (c : Channel) : Channel :=
  let c := { c with txMode := m, nextTx := none, dry := false }
  { c with txState := if hold then .held else startState c }

/-- A transmitter that has become OFF takes the mode an enable left waiting (R144). -/
def Channel.becomeOff (hold : Bool) (c : Channel) : Channel :=
  match c.nextTx with
  | none => { c with txState := .off, dry := false }
  | some m => { c with txState := .off }.startTx hold m

/-- Disable the transmitter (R140, R144). -/
def Channel.disableTx (c : Channel) : Channel :=
  match c.txMode, c.txState with
  | _, .off => c
  | .transparent, _ => { c with txState := .off, dry := false, nextTx := none }
  | .framed, .idle => { c with txState := .off, nextTx := none }
  | .framed, .sending => { c.discardBehind with txState := .draining, nextTx := none }
  | .framed, .draining => { c with nextTx := none }
  | .framed, .held => { c.discardAll with txState := .off, nextTx := none }

/-- Enable the transmitter in a mode (R137, R140, R144). -/
def Channel.enableTx (hold : Bool) (m : ChanMode) (c : Channel) : Channel :=
  if c.txState = .off then c.startTx hold m
  else if c.txMode = m then (if c.txState = .draining then { c with txState := .sending, nextTx := none } else c)
  else
    let d := c.disableTx
    if d.txState = .off then d.startTx hold m else { d with nextTx := some m }

/-- The Signal Unit's pause (R140, R144). -/
def Channel.pause (c : Channel) : Channel :=
  match c.txState with
  | .off => c
  | .held => c
  | .idle => { c with txState := .held }
  | .sending => if c.txMode = .framed then { c.finishHead .sentAborted with txState := .held } else { c with txState := .held }
  | .draining => (c.finishHead .sentAborted).becomeOff true

/-- The Signal Unit's ready: the first frame is preceded by an opening flag (R140, R144). -/
def Channel.ready (c : Channel) : Channel :=
  if c.txState = .held then { c with txState := startState c }.openFrame else c

/-- The transmitter returns to IDLE, which is a FRAMED state (R139, R144, log 51). -/
def Channel.toIdle (c : Channel) : Channel := { c with txState := .idle, txMode := .framed, nextTx := none, dry := false }

/-- An owner abort (R139): eight ones unless the transmitter is OFF or HELD, and every record is discarded. -/
def Channel.ownerAbort (c : Channel) : Channel :=
  match c.txState with
  | .off => c
  | .draining => { (c.discardAll).becomeOff false with wire := abortBits }
  | .held => c.discardAll.toIdle
  | .idle => { c with wire := abortBits }
  | .sending => { c.discardAll.toIdle with wire := abortBits }

/-- The octets a record declares: a page frame is its frame number and its page octets (R136, R162). -/
def contentLength : Content → Nat
  | .octets bs => bs.length
  | .control f => (Config.controlOctets f).length
  | .page _ n => n + 1

/-- The content is no longer than the 297 octets a frame may declare (R136); a control frame never is (log 15). -/
def contentFits : Content → Bool
  | .octets bs => decide (bs.length ≤ 297)
  | .control _ => true
  | .page _ n => decide (n + 1 ≤ 297)

/-- What the channel answers to an offered record (R136). -/
inductive OfferResult where
  | taken | tooLong | queueFull | wrongState
deriving DecidableEq, Repr

/-- The answer to an offered record (R136). A queue of 4 is never found in OFF, in DRAINING or in TRANSPARENT. -/
def Channel.offerResult (r : FrameRec) (c : Channel) : OfferResult :=
  if c.txMode ≠ .framed ∨ c.txState = .off ∨ c.txState = .draining then .wrongState
  else if contentFits r.content = false then .tooLong
  else if 4 ≤ c.txQueue.length then .queueFull
  else .taken

/-- Whether an offered record is taken (R136). -/
def Channel.takes (r : FrameRec) (c : Channel) : Bool := c.offerResult r == .taken

/-- Offer a record: appended at the tail if it is taken, else left with its owner (R136); an IDLE transmitter starts SENDING, the
frame's first bit following a flag (R137). -/
def Channel.offer (r : FrameRec) (c : Channel) : Channel :=
  if c.takes r then
    { c with txQueue := c.txQueue ++ [r], txState := if c.txState = .idle then .sending else c.txState,
             wire := if c.txState = .idle then c.wire ++ flagBits else c.wire }
  else c

/-- A frame is in progress on the line. -/
def Channel.frameInProgress (c : Channel) : Bool :=
  decide (c.txMode = .framed ∧ (c.txState = .sending ∨ c.txState = .draining) ∧ c.txQueue ≠ [])

/-- The frame in progress ends with a verdict: SENT at its closing flag (R137), SENT-ABORTED at an underrun (R138). -/
def Channel.frameEnds (v : TxVerdict) (c : Channel) : Channel :=
  let d := c.finishHead v
  if c.txState = .draining then d.becomeOff false else { d with txState := startState d }

/-- The frame whose bits are given is sent, its closing flag with it: that flag opens the next frame (R137). -/
def Channel.frameSent (bits : List Bool) (c : Channel) : Channel := { c.frameEnds .sent with wire := bits ++ flagBits }

/-- An underrun (R138): the abort, the report, and an opening flag where another record waits. -/
def Channel.underrun (c : Channel) : Channel :=
  { c.frameEnds .sentAborted with wire := abortBits ++ (c.frameEnds .sentAborted).opening }

/-- The transparent transmitter finds no octet ready: one octet of zeros, and DRY at the first of each run (R144). -/
def Channel.runDry (c : Channel) : Channel :=
  if c.txMode = .transparent ∧ c.txState = .sending then
    { c with dry := true, wire := octetBits 0, reports := if c.dry then c.reports else c.reports ++ [.dry] }
  else c

/-- The transparent transmitter is given octets: a run of DRY is over (R144). -/
def Channel.sendOctets (bits : List Bool) (c : Channel) : Channel := { c with wire := bits, dry := false }

/-! ## Receiver (R141 to R144) -/

/-- A completed record: appended and counted, or lost when four are waiting (R143). -/
def Channel.complete (r : RxRecord) (c : Channel) : Channel :=
  let c := { c with rxAddress := none, rxTooLong := false }
  if c.rxQueue.length < 4 then { c with rxQueue := c.rxQueue ++ [r], counts := countRx r.verdict c.counts }
  else { c with counts := { c.counts with frameLost := bump c.counts.frameLost }, reports := c.reports ++ [.lost] }

/-- A record of a verdict that carries its address and no content. -/
def emptyRecord (v : RxVerdict) (c : Channel) : RxRecord := ⟨c.rxAddress, .octets [], v⟩

/-- A receiver in DISCARD leaves it: a TOO-LONG frame completes its record first. -/
def Channel.endDiscard (c : Channel) : Channel :=
  if c.rxTooLong then c.complete (emptyRecord .tooLong c) else { c with rxAddress := none }

/-- The address filter (R142). -/
def Channel.accepts (a : Byte) (c : Channel) : Bool :=
  match c.filter with
  | .off => true
  | .exact => a == c.ownAddress || a == 0xFF
  | .upper => (a >>> 4) == (c.ownAddress >>> 4) || a == 0xFF

/-- The Signal Unit stops delivering bits (R141, R144). -/
def Channel.bitsStop (c : Channel) : Channel :=
  match c.rxMode, c.rxState with
  | .transparent, _ => c
  | .framed, .off => c
  | .framed, .frame => { c.complete (emptyRecord .aborted c) with rxState := .hunt }
  | .framed, .discard => { c.endDiscard with rxState := .hunt }
  | .framed, _ => { c with rxState := .hunt }

/-- Disable the receiver (R141). -/
def Channel.disableRx (c : Channel) : Channel := { c with rxState := .off, rxAddress := none, rxTooLong := false }

/-- Enable the receiver in a mode (R141, R144). -/
def Channel.enableRx (m : ChanMode) (c : Channel) : Channel :=
  if c.rxState ≠ .off ∧ c.rxMode = m then c
  else { c.disableRx with rxMode := m, rxState := match m with | .framed => .hunt | .transparent => .frame }

/-- A flag that completes no frame (R141). -/
def Channel.flag (c : Channel) : Channel :=
  match c.rxMode, c.rxState with
  | .framed, .hunt => { c with rxState := .sync }
  | .framed, .discard => { c.endDiscard with rxState := .sync }
  | _, _ => c

/-- The first bit of a frame after a flag (R141): the receive limit in force is this frame's (R133). -/
def Channel.firstBit (c : Channel) : Channel :=
  match c.rxMode, c.rxState with
  | .framed, .sync => { c with rxState := .frame, rxAddress := none, rxTooLong := false, rxLimit := c.limit }
  | _, _ => c

/-- The address octet of the frame being received (R142). -/
def Channel.address (a : Byte) (c : Channel) : Channel :=
  if c.rxMode = .framed ∧ c.rxState = .frame ∧ c.rxAddress = none then
    (if c.accepts a then { c with rxAddress := some a } else { c with rxState := .discard })
  else c

/-- The frame being received passes the receive limit (R142). -/
def Channel.overLimit (c : Channel) : Channel :=
  if c.rxMode = .framed ∧ c.rxState = .frame then { c with rxState := .discard, rxTooLong := true } else c

/-- The record of a frame that reaches its closing flag, or none where its address fails the filter (R142, R143). -/
def judgeFrame (f : LineFrame) (c : Channel) : Option RxRecord :=
  match f with
  | .control k => some ⟨some 0xFF, .control k, .good⟩
  | .bits raw =>
    let bits := destuff raw
    let r := recordOf bits
    let passes := match r.address with | none => true | some a => c.rxAddress.isSome || c.accepts a
    if !passes then none
    else if c.rxLimit < bits.length / 8 then some ⟨r.address, .octets [], .tooLong⟩
    else some r

/-- A closing flag (R141, R143). In SYNC the frame's first bit is taken with it; two flags with nothing between make no frame. -/
def Channel.closingFlag (f : LineFrame) (c : Channel) : Channel :=
  match c.rxMode, c.rxState with
  | .framed, .hunt => { c with rxState := .sync }
  | .framed, .discard => { c.endDiscard with rxState := .sync }
  | .framed, .sync =>
    if f = .bits [] then c
    else match judgeFrame f { c with rxAddress := none, rxLimit := c.limit } with
      | none => c
      | some r => { c.complete r with rxState := .sync }
  | .framed, .frame =>
    match judgeFrame f c with
    | none => { c with rxState := .sync, rxAddress := none }
    | some r => { c.complete r with rxState := .sync }
  | _, _ => c

/-- Seven consecutive ones (R141). -/
def Channel.abortSeen (c : Channel) : Channel :=
  match c.rxMode, c.rxState with
  | .framed, .sync => { c with rxState := .hunt }
  | .framed, .frame => { c.complete (emptyRecord .aborted c) with rxState := .hunt }
  | .framed, .discard => { c.endDiscard with rxState := .hunt }
  | _, _ => c

end Sys2Proof.Machine
end

