-- ==== Sys2Proof/Machine/SignalOps.lean ====
section
/-! DEFINITION. The Signal Unit's own operations (spec 02): mode requests, the cadence classifier, generation, training. -/

namespace Sys2Proof.Machine

/-! ## Modes (R29) -/

/-- A mode in which bits cross the Frame Channel (R43). -/
def isBitMode : SuMode → Bool
  | .data => true
  | .faxSlow => true
  | .faxFast => true
  | _ => false

/-- A mode that is entered with a training (R29, R38). -/
def isTrainedMode : SuMode → Bool
  | .data => true
  | .faxFast => true
  | _ => false

/-- A mode in which steady tones are detected (R32). -/
def isToneMode : SuMode → Bool
  | .tones => true
  | .voice => true
  | _ => false

/-- The transmit side is held: a training or a retrain, or a tone in FAX-SLOW (R43). -/
def SignalUnit.holds (u : SignalUnit) : Bool := u.training || (u.mode == .faxSlow && u.generation.isSome)

/-- Demodulated bits are delivered (R43). -/
def SignalUnit.delivers (u : SignalUnit) : Bool := isBitMode u.mode && !u.training && u.carrier

/-- What the unit reports of a tone that a new request ends: result CUT; with no tone in progress its last report stands (R37). -/
def SignalUnit.cutTone (u : SignalUnit) : Option ToneReport :=
  match u.generation with
  | some g => some ⟨g.tone, .cut⟩
  | none => u.lastTone

/-- A mode request (R29): what every request clears, then the new mode from its beginning; a tone being generated is CUT (R37). -/
def SignalUnit.request (m : SuMode) (own peer : Fin 6) (loss : Option Nat) (u : SignalUnit) : SignalUnit :=
  { u with mode := m, returnMode := none, plain := false, training := isTrainedMode m, ownCeiling := own, peerCeiling := peer,
           carrier := false, watch := false, lossTime := loss.getD u.lossTime, lossTimer := false, detector := .none,
           counters := Vector.replicate 8 CadenceCounter.zero, generation := none, lastTone := u.cutTone, onAt := none,
           pairOn := none, offAt := none, onDuration := none, offDuration := none, heardKeypad := false, heardAnswer := false, heardData := false,
           heardSpeech := false }

/-- What a change of the unit does to the Frame Channel: bits stop, and the transmitter is paused or ready (R43, R141). -/
def Channel.follow (u : SignalUnit) (c : Channel) : Channel :=
  let c := if u.delivers then c else c.bitsStop
  if u.holds then c.pause else c.ready

/-- Let a line's Frame Channel follow its Signal Unit. -/
def followUnit (l : LineId) (s : State) : State := s.updFc l (Channel.follow (s.su.get l))

/-- A serving block's mode request (R29). -/
def requestMode (l : LineId) (m : SuMode) (own peer : Fin 6) (loss : Option Nat) (s : State) : State :=
  (s.updSu l (SignalUnit.request m own peer loss)).updFc l fun c =>
    Channel.follow ((s.su.get l).request m own peer loss) c.bitsStop

/-- A mode request that carries nothing: a ceiling it does not carry is 5. -/
def setMode (l : LineId) (m : SuMode) (s : State) : State := requestMode l m 5 5 none s

/-! ## Cadence classifier (R32 to R35) -/

/-- A cadence entry: repeat count and off maximum above 0 (R33). -/
def CadenceEntry.isPair (e : CadenceEntry) : Bool := decide (0 < e.repeatCount ∧ 0 < e.offMax)

/-- A continuous entry: off maximum 0; repeat count 0 is unused (R34). -/
def CadenceEntry.isContinuous (e : CadenceEntry) : Bool := decide (0 < e.repeatCount ∧ e.offMax = 0)

/-- A cadence class as the classifier raises it: class, entry and run start (R33, R34). -/
structure CadenceClassEvent where
  cls : CadenceClass
  entry : Fin 8
  runStart : Moment
deriving DecidableEq, Repr

/-- A count set to 0 with no run start; the present pair no longer counts (R33). -/
def CadenceCounter.spoil (k : CadenceCounter) : CadenceCounter := { k with count := 0, runStart := none, spoiled := true }

/-- Judge the on period that has ended (R33). -/
def judgeOn (d : Nat) (e : CadenceEntry) (k : CadenceCounter) : CadenceCounter :=
  if e.isPair ∧ (e.onMax < d ∨ d < e.onMin) then k.spoil else k

/-- Judge the off period that has ended and count the pair (R33). -/
def judgePair (d : Nat) (start : Moment) (e : CadenceEntry) (k : CadenceCounter) : CadenceCounter :=
  if !e.isPair then k
  else
    let k := if e.offMax < d ∨ d < e.offMin then k.spoil else k
    if k.spoiled then { k with spoiled := false }
    else { k with count := k.count + 1, runStart := if k.count = 0 then some start else k.runStart }

/-- An entry has reached its repeat count at the pair just counted (R33). -/
def reaches (e : CadenceEntry) (k : CadenceCounter) : Bool := e.isPair && decide (e.repeatCount ≤ k.count)

/-- The eight entries in order. -/
def allEntries : List (Fin 8) := [0, 1, 2, 3, 4, 5, 6, 7]

/-- The detectors hear the line in this mode: VOICE, or TONES while no tone is generated (R32). -/
def SignalUnit.hearsTones (u : SignalUnit) : Bool := isToneMode u.mode && !(u.mode == .tones && u.generation.isSome)

/-- Tone-on at time `t` (R32, R33): the unit, and the cadence class raised. -/
def SignalUnit.toneOn (t : Nat) (u : SignalUnit) : SignalUnit × Option CadenceClassEvent :=
  let here : Moment := ⟨t, u.sampleClock⟩
  let off := u.offAt.map (t - ·)
  let counted : Vector CadenceCounter 8 :=
    match u.pairOn, off with
    | some start, some d => Vector.zipWith (judgePair d start) u.cadence u.counters
    | _, _ => u.counters.map fun k => { k with spoiled := false }
  let hit := allEntries.find? fun n => reaches u.cadence[n] counted[n]
  let raised := hit.map fun n =>
    (⟨u.cadence[n].cls, n, (counted[n].runStart).getD here⟩ : CadenceClassEvent)
  let after := Vector.zipWith (fun e k =>
    let k := if reaches e k then { k with count := 0, runStart := none } else k
    { k with reported := false }) u.cadence counted
  ({ u with detector := .steady, onAt := some here, pairOn := none, offAt := none, offDuration := off, counters := after }, raised)

/-- Tone-off at time `t` (R32, R33). -/
def SignalUnit.toneOff (t : Nat) (u : SignalUnit) : SignalUnit :=
  match u.onAt with
  | none => u
  | some m =>
    let d := t - m.ms
    { u with detector := .none, onAt := none, pairOn := some m, offAt := some t, onDuration := some d,
             counters := Vector.zipWith (judgeOn d) u.cadence u.counters }

/-- The on period reaches the on minimum of a continuous entry (R34): the class names the lowest such entry with that minimum
not yet reported, and every one of them counts as reported. -/
def SignalUnit.continuous (n : Fin 8) (u : SignalUnit) : SignalUnit × Option CadenceClassEvent :=
  match u.onAt with
  | none => (u, none)
  | some m =>
    if !(u.cadence[n].isContinuous) || u.counters[n].reported then (u, none)
    else
      let same := fun (k : Fin 8) =>
        u.cadence[k].isContinuous && u.cadence[k].onMin == u.cadence[n].onMin && !u.counters[k].reported
      let first := (allEntries.find? same).getD n
      ({ u with counters := Vector.zipWith (fun e k =>
            if e.isContinuous && e.onMin == u.cadence[n].onMin then { k with reported := true } else k) u.cadence u.counters },
       some ⟨u.cadence[first].cls, first, m⟩)

/-- The present on or off period exceeds an entry's maximum (R33). -/
def SignalUnit.resetCadence (n : Fin 8) (u : SignalUnit) : SignalUnit :=
  if u.cadence[n].isPair ∧ isToneMode u.mode then { u with counters := u.counters.set n u.counters[n].spoil } else u

/-- Replace cadence entries: each replaced entry's count is 0 and its run start cleared (R35). DESIGN CHOICE, unsafe (log 53): the
replacement is no reset of the pair in progress, which may still count for the new entry. DESIGN CHOICE, unsafe (log 71): an entry
number that the list names twice is replaced twice, in the order of the list. -/
def replaceCadence : List (Fin 8 × CadenceEntry) → SignalUnit → SignalUnit
  | [], u => u
  | (n, e) :: es, u => replaceCadence es { u with cadence := u.cadence.set n e, counters := u.counters.set n .zero }

/-! ## Generation (R37) -/

/-- How long a tone sounds, in ms (R37). -/
def SignalUnit.soundTime (u : SignalUnit) : Tone → Nat
  | .keypad _ => u.toneOnTime
  | .beep => 500
  | .answerTone => 3000

/-- The silence after a tone, in ms: a keypad tone's gap (R37). -/
def SignalUnit.silenceAfter (u : SignalUnit) : Tone → Nat
  | .keypad _ => u.toneGapTime
  | _ => 0

/-- The generation of a tone asked for now (R37). -/
def SignalUnit.toneOf (u : SignalUnit) (g : Tone) : Generation := ⟨g, u.soundTime g, u.silenceAfter g, u.sampleClock⟩

/-- The tone of a generation sounds at a line sample, 9.6 samples to the millisecond (R31, R37); after that its gap is silent. -/
def Generation.sounds (g : Generation) (clock : Nat) : Bool := decide (5 * (clock - g.start - 1) < 48 * g.duration)

/-- A request to generate a tone is taken in TONES, VOICE and FAX-SLOW (R37). -/
def generates : SuMode → Bool
  | .tones => true
  | .voice => true
  | .faxSlow => true
  | _ => false

/-- Ask the unit to generate a tone; a tone in progress is reported CUT, and in other modes the request REFUSED (R37). In TONES the
steady-tone detector is held while a tone is generated: an on period is abandoned, an off period goes on (R32, log 45). -/
def SignalUnit.startTone (g : Tone) (u : SignalUnit) : SignalUnit :=
  if generates u.mode then
    let u := { u with generation := some (u.toneOf g), lastTone := u.cutTone }
    if u.mode = .tones then { u with detector := .none, onAt := none } else u
  else { u with lastTone := some ⟨g, .refused⟩ }

/-- Ask a line's unit to generate a tone. -/
def startTone (l : LineId) (g : Tone) (s : State) : State := followUnit l (s.updSu l (SignalUnit.startTone g))

/-- The generation ends with a result (R37). -/
def SignalUnit.endTone (r : ToneEnd) (u : SignalUnit) : SignalUnit :=
  { u with generation := none, lastTone := (u.generation.map fun g => ⟨g.tone, r⟩).orElse fun _ => u.lastTone }

/-- End the generation of a line's unit with a result: COMPLETE at its end, CUT where the serving block stops it (R37, log 52). -/
def endTone (l : LineId) (r : ToneEnd) (s : State) : State := followUnit l (s.updSu l (SignalUnit.endTone r))

/-! ## Training, rate and quality (R38 to R41) -/

/-- The need of a rate index (Table 2-3). -/
def need (i : Fin 6) : Nat :=
  match i with
  | 0 => 8
  | 1 => 14
  | 2 => 20
  | 3 => 26
  | 4 => 34
  | 5 => 42

/-- The highest index within both ceilings whose need the measure meets (R38). -/
def chooseRate (own peer : Fin 6) (q : Fin 64) : Option (Fin 6) :=
  ([5, 4, 3, 2, 1, 0] : List (Fin 6)).find? fun i => decide (i ≤ own ∧ i ≤ peer ∧ need i ≤ q.val)

/-- The mode a training ends in: the return mode after a retrain, else the present one (R41). -/
def SignalUnit.trainedMode (u : SignalUnit) : SuMode :=
  match u.mode, u.returnMode with
  | .retrain, some m => m
  | m, _ => m

/-- The training succeeds at an index (R38, R41): in DATA the carrier watch is on. -/
def SignalUnit.trained (q : Fin 64) (i : Fin 6) (u : SignalUnit) : SignalUnit :=
  { u with mode := u.trainedMode, returnMode := none, training := false, quality := q, rate := i, carrier := true,
           watch := u.watch || u.trainedMode == .data, lossTimer := false }

/-- The training fails (R38, R41): the rate index is left, the carrier ABSENT. -/
def SignalUnit.trainingFailed (q : Fin 64) (u : SignalUnit) : SignalUnit :=
  { u with mode := u.trainedMode, returnMode := none, training := false, quality := q, carrier := false, lossTimer := false }

/-- A retrain from DATA or FAX-FAST, or a new ceiling for the retrain in progress (R41). -/
def SignalUnit.retrain (own : Option (Fin 6)) (u : SignalUnit) : SignalUnit :=
  if isTrainedMode u.mode ∧ u.training = false then
    { u with returnMode := some u.mode, mode := .retrain, training := true, lossTimer := false,
             ownCeiling := own.getD u.ownCeiling }
  else if u.mode = .retrain then { u with ownCeiling := own.getD u.ownCeiling }
  else u

/-- Retrain a line's unit. -/
def retrain (l : LineId) (own : Option (Fin 6)) (s : State) : State := followUnit l (s.updSu l (SignalUnit.retrain own))

/-- Arm or disarm the carrier watch: armed while the carrier is ABSENT the timer starts at once, disarmed it stops (R40). -/
def setWatch (l : LineId) (on : Bool) (s : State) : State :=
  s.updSu l fun u => { u with watch := on, lossTimer := on && (u.lossTimer || (!u.carrier && !u.training)) }

end Sys2Proof.Machine
end

