-- ==== Sys2Proof/Machine/StreamOps.lean ====
section
/-! DEFINITION. The streams' own operations (spec 10): states, halts and unbinding, and the discard of a write (R78), whose readers
are told MESSAGE-GONE. -/

namespace Sys2Proof.Machine

/-- Change an inbound stream, raising its STREAM notice when its state changes (R190). -/
def changeIn (p : PortId) (f : InStream → InStream) (s : State) : State :=
  let t := s.updIn p f
  if (s.st.get p).inb.state = (t.st.get p).inb.state then t else streamNotice p .inbound t

/-- Change an outbound stream, raising its STREAM notice when its state changes (R190). -/
def changeOut (p : PortId) (f : OutStream → OutStream) (s : State) : State :=
  let t := s.updOut p f
  if (s.st.get p).outb.state = (t.st.get p).outb.state then t else streamNotice p .outbound t

/-- The inbound stream enters HALTED (R196): the reason, no credit, an empty buffer. -/
def InStream.halted (r : HaltReason) (i : InStream) : InStream :=
  { i with state := .halted, halt := some r, credit := 0, slots := [], burst := false }

/-- The outbound stream enters HALTED (R196). -/
def OutStream.halted (r : HaltReason) (o : OutStream) : OutStream :=
  { o with state := .halted, halt := some r, haltPending := false, credit := 0, buffer := [], bursts := 0, burst := false }

/-- The stream moves bytes: ACTIVE or WAITING. -/
def StreamState.running : StreamState → Bool
  | .active => true
  | .waiting => true
  | _ => false

/-- The READ handle of a port's outbound stream. -/
def outHandle (p : PortId) (s : State) : Option Handle :=
  match (s.st.get p).outb.binding with
  | some (.handle n) => s.store.handle? (.port p n)
  | _ => none

/-- The WRITE handle of a port's inbound stream, while it is ACTIVE. -/
def inHandle (p : PortId) (s : State) : Option Handle :=
  match (s.st.get p).inb.binding, (s.st.get p).inb.state with
  | some (.handle n), .active => s.store.handle? (.port p n)
  | _, _ => none

/-- A port's stream that reads the entry halts with MESSAGE-GONE (R76, R193). -/
def tellStream (n : Fin 128) (p : PortId) (s : State) : State :=
  match outHandle p s with
  | some h =>
    if h.entry = n ∧ (s.st.get p).outb.state.running then changeOut p (OutStream.halted .messageGone) s else s
  | none => s

/-- The bytes of a port's outbound buffer that lie at or beyond a position the handle was set back to (R193): for a voice entry
the blocks that start there and what was brought of the next one. -/
def bytesBeyond (e : DirEntry) (bursts old new : Nat) : Nat :=
  if e.kind.isVoice then
    Config.blockBytes * (e.blocks.foldl (fun (x : Nat × Nat) b =>
      (x.1 + b.samples, if new ≤ x.1 ∧ x.1 < old then x.2 + 1 else x.2)) (0, 0)).2 + Config.burstBytes * bursts
  else old - new

/-- A cut-back of entry `n` reaches a port's outbound stream (R193): the buffered bytes beyond the new position are dropped. -/
def cutStream (n : Fin 128) (e : DirEntry) (old : Store) (p : PortId) (s : State) : State :=
  match (s.st.get p).outb.binding with
  | some (.handle k) =>
    match old.handle? (.port p k), s.store.handle? (.port p k) with
    | some a, some b =>
      if a.entry = n ∧ b.pos < a.pos ∧ (s.st.get p).outb.state.running then
        s.updOut p fun o =>
          { o with buffer := o.buffer.take (o.buffer.length - bytesBeyond e o.bursts a.pos b.pos), bursts := 0, burst := false }
      else s
    | _, _ => s
  | _ => s

/-- The buffer in transfer of a context still brings the block at its handle's position, and as much of it as the store holds. -/
def fetchStands (c : CtxId) (s : State) : Bool :=
  match (s.vp.get c).holder.bind s.store.handle? with
  | none => true
  | some h =>
    match blockAt s.store.dir[h.entry].blocks 0 0 h.pos with
    | none => (s.vp.get c).other.block.isNone
    | some b => decide ((s.vp.get c).other.block = some b.2.num ∧ (s.vp.get c).other.samples = b.2.samples)

/-- A cut-back reaches a context that plays the entry: a transfer of what has been cut away, or of a block the handle was set back
from, is given up, and the next transfer resumes from the handle (R72, R105). -/
def cutPlayback (c : CtxId) (s : State) : State :=
  if (s.vp.get c).activity = .playing ∧ (s.vp.get c).other.block.isSome ∧ fetchStands c s = false then
    s.updCtx c fun v => { v with other := .empty, burst := false }
  else s

/-- Cut a WRITING entry back (R72), its readers' streams (R193) and playbacks with it. -/
def cutEntry (n : Fin 128) (len : Nat) (s : State) : State :=
  let old := s.store
  forEach cutPlayback allCtxs (forEach (cutStream n old.dir[n] old) allPorts (onStore (Store.cutBack n len) s))

/-- The play handle of a context (Table 4-4). -/
def playHolder : CtxId → Holder
  | .l0 => .linePlay .line0
  | .l1 => .linePlay .line1
  | .loc => .localPlay

/-- The WRITE handle of a context (Table 4-4). -/
def writeHolder : CtxId → Holder
  | .l0 => .lineWrite .line0
  | .l1 => .lineWrite .line1
  | .loc => .localWrite

/-- A context returns to IDLE (R95). -/
def ctxIdle (c : CtxId) (s : State) : State := s.updCtx c fun v => .idle v.settings

/-- The Signal Unit of a context's line goes to QUIET; LOCAL has none (R30). -/
def quietCtx (c : CtxId) (s : State) : State :=
  match lineOfCtx c with
  | some l => setMode l .quiet s
  | none => s

/-- The LOCAL speaker holder is released at the end of a CONTEXT (R120). -/
def releaseLocal (c : CtxId) (s : State) : State :=
  match c with
  | .loc => s.updVm fun v => { v with holder := if v.holder = .context then .none else v.holder, localPort := none }
  | _ => s

/-- A playback ends: the handle named is closed, the context is IDLE, and the report keeps the end (R122, R125). -/
def endPlayback (c : CtxId) (h : Holder) (e : PlayEnd) (s : State) : State :=
  voiceNotice c .ended
    ((ctxIdle c (onStore (Store.closeHandle h) s)).updReport c fun r => { r with playEnd := some e })

/-- A port's playback ends (R122): the line's Signal Unit goes to QUIET, LOCAL's holder is released. -/
def endPortPlay (c : CtxId) (e : PlayEnd) (s : State) : State :=
  releaseLocal c (quietCtx c (endPlayback c (playHolder c) e s))

/-- A context plays for a port. -/
def portPlays (c : CtxId) (s : State) : Bool :=
  (s.vp.get c).activity == .playing && (s.vm.report.get c).op == .play

/-- A context that plays the entry for a port ends with MESSAGE-GONE (R76, R106, R122). -/
def tellPlayback (n : Fin 128) (c : CtxId) (s : State) : State :=
  match s.store.handle? (playHolder c) with
  | some h => if h.entry = n ∧ portPlays c s then endPortPlay c .messageGone s else s
  | none => s

/-- The entry of a discarded write goes (R78); the page entries of a FAX-OUT are released with the write, whoever still reads it
(R69). -/
def Store.retireWrite (n : Fin 128) (st : Store) : Store :=
  (if st.dir[n].kind = .faxOut then st.releasePages st.dir[n].pageList else st).retire n

/-- A write is discarded (R78): the WRITE handle closes, the readers are told MESSAGE-GONE, and the entry becomes FREE or
DELETE-PENDING. -/
def discardWrite (n : Fin 128) (s : State) : State :=
  let s := onStore (Store.closeWrite n) s
  let s := forEach (tellStream n) allPorts s
  let s := forEach (tellPlayback n) allCtxs s
  onStore (Store.retireWrite n) s

/-- An inbound stream halts (R192, R196): a write bound to it is discarded. -/
def haltIn (p : PortId) (r : HaltReason) (s : State) : State :=
  let h := inHandle p s
  let s := changeIn p (InStream.halted r) s
  match h with
  | some k => discardWrite k.entry s
  | none => s

/-- An outbound stream halts (R196). -/
def haltOut (p : PortId) (r : HaltReason) (s : State) : State := changeOut p (OutStream.halted r) s

/-- An inbound stream returns to UNBOUND (R190); a write still in progress is discarded (R196, R197). -/
def unbindIn (p : PortId) (s : State) : State :=
  let h := inHandle p s
  let s := changeIn p (fun _ => .unbound) s
  match h with
  | some k => discardWrite k.entry s
  | none => s

/-- An outbound stream returns to UNBOUND (R190), its handle closed (R196, R197). -/
def unbindOut (p : PortId) (s : State) : State :=
  let b := (s.st.get p).outb.binding
  let s := changeOut p (fun _ => .unbound) s
  match b with
  | some (.handle n) => onStore (Store.closeHandle (.port p n)) s
  | _ => s

/-- Send the master a STREAM-CREDIT packet (R191, R192). -/
def grant (p : PortId) (k : Nat) (s : State) : State :=
  if k = 0 then s else s.updPc p fun c => { c with creditOut := c.creditOut ++ [k] }

/-- The computer can take a data call (R10): the CP READY, both CP streams UNBOUND and no checked link. -/
def canTakeData (s : State) : Bool :=
  isReady s .cp && (s.st.get .cp).inb.state == .unbound && (s.st.get .cp).outb.state == .unbound && s.cl.state == .ended

end Sys2Proof.Machine
end

