-- ==== Sys2Proof/Machine/LineBase.lean ====
section
/-! DEFINITION. The line record's own moves (spec 01 1.2, R13, R14, R30): what every change of the line state brings, and the entry
to CLEARING. -/

namespace Sys2Proof.Machine

/-- The off-hook states (01 1.2). -/
def LineState.offHook : LineState → Bool
  | .seized => true
  | .dialling => true
  | .awaiting => true
  | .voice => true
  | .fax => true
  | .data => true
  | .talk => true
  | _ => false

/-- The line record in a new state: the hook relay, the fault timer and the loop-break timer follow (01 1.2, R4, R13). -/
def LineRec.enter (st : LineState) (loop : Bool) (r : LineRec) : LineRec :=
  { r with state := st, hook := st.offHook,
           faultTimer := if st.offHook then .stopped
             else if r.state.offHook then (if loop then .stopped else .running) else r.faultTimer,
           loopBreak := if !st.offHook then false else if r.state.offHook then r.loopBreak else !loop }

/-- Move the line to a state: an on-hook state puts the Signal Unit in QUIET (R30), STATE is added, and FAULT when the line enters
or leaves FAULT (Table 1-8). -/
def moveLine (l : LineId) (st : LineState) (s : State) : State :=
  let old := (s.lc.get l).state
  if old = st then s
  else
    let s := s.updLc l (LineRec.enter st (s.pins.loop.get l))
    let s := if st.offHook then s else setMode l .quiet s
    let s := addChange l .state s
    if old = .fault ∨ st = .fault then addChange l .fault s else s

/-- The bridge of a line ends, and its microphone sample with it (R110, R121). -/
def dropBridge (l : LineId) (s : State) : State :=
  s.updVm fun v => if v.holder = .bridge l then { v with holder := .none, micOut := 0 } else v

/-- The line is put on hook and enters CLEARING: the bridge is released, a delivery's queue entry is DONE, and the guard starts
(R13, R14, R60, R121). -/
def lineToClearing (l : LineId) (s : State) : State :=
  moveLine l .clearing ((deliveryDone l (dropBridge l s)).updLc l fun r => { r with extRemembered := false })

/-- A serving block asks for the line to be cleared (R13). -/
def blockClear (l : LineId) (s : State) : State :=
  if (s.lc.get l).state.offHook then lineToClearing l s else s

/-- Ask for a call note and clear the line. -/
def noteAndClear (l : LineId) (s : State) : State := blockClear l (askCallNote l s)

end Sys2Proof.Machine
end

