-- ==== Sys2Proof/Machine/CallerOps.lean ====
section
/-! DEFINITION. Caller identity (spec 01 1.9): the window, the message and its parameters, and the clock set from a record. -/

namespace Sys2Proof.Machine

/-- A decimal digit character. -/
def digitOf (b : Byte) : Option (Fin 10) :=
  if h : 0x30 ≤ b.toNat ∧ b.toNat ≤ 0x39 then some ⟨b.toNat - 0x30, by omega⟩ else none

/-- A run of decimal digit characters. -/
def digitsOf : List Byte → Option (List (Fin 10))
  | [] => some []
  | b :: bs =>
    match digitOf b, digitsOf bs with
    | some d, some ds => some (d :: ds)
    | _, _ => none

/-- A printable character: ASCII 0x20 to 0x7E (PRESUMED, log 16). -/
def isPrintable (b : Byte) : Bool := decide (0x20 ≤ b.toNat ∧ b.toNat ≤ 0x7E)

/-- The time parameter: exactly eight digits MMDDhhmm within their ranges (Table 1-15). -/
def timeOf (v : List Byte) : Option CallerTime :=
  match digitsOf v with
  | some [a, b, c, d, e, f, g, h] =>
    let t : CallerTime := ⟨a.val * 10 + b.val, c.val * 10 + d.val, e.val * 10 + f.val, g.val * 10 + h.val⟩
    if 1 ≤ t.month ∧ t.month ≤ 12 ∧ 1 ≤ t.day ∧ t.day ≤ 31 ∧ t.hour ≤ 23 ∧ t.minute ≤ 59 then some t else none
  | _ => none

/-- The number parameter: 1 to 20 digits (Table 1-15). -/
def numberOf (v : List Byte) : Option (List (Fin 10)) := if 1 ≤ v.length ∧ v.length ≤ 20 then digitsOf v else none

/-- The name parameter: 1 to 15 printable characters (Table 1-15). -/
def nameOf (v : List Byte) : Option (List Byte) := if 1 ≤ v.length ∧ v.length ≤ 15 ∧ v.all isPrintable then some v else none

/-- A withheld reason: `P` or `O` (Table 1-15). -/
def withheldOf : List Byte → Option Withheld
  | [b] => if b = 0x50 then some .onRequest else if b = 0x4F then some .unavailable else none
  | _ => none

/-- The parameters of a message; none where one runs past the parameter octets (R22, R23). `fuel` bounds their number. -/
def readParams : Nat → List Byte → Option (List (Byte × List Byte))
  | _, [] => some []
  | 0, _ => none
  | k + 1, code :: len :: rest =>
    if len.toNat ≤ rest.length then (readParams k (rest.drop len.toNat)).map ((code, rest.take len.toNat) :: ·) else none
  | _, [_] => none

/-- The first value that gives a field (R23). -/
def firstField {α : Type} (code : Byte) (f : List Byte → Option α) : List (Byte × List Byte) → Option α
  | [] => none
  | (c, v) :: ps => if c = code then (f v).orElse fun _ => firstField code f ps else firstField code f ps

/-- The record of a valid message, from its parameters (R23). -/
def receivedRecord (ps : List (Byte × List Byte)) : CallerRecord :=
  { received := true, time := firstField 0x10 timeOf ps, number := firstField 0x11 numberOf ps, name := firstField 0x12 nameOf ps,
    numberWithheld := firstField 0x13 withheldOf ps, nameWithheld := firstField 0x14 withheldOf ps }

/-- A record of status INVALID: no fields (Table 1-14). -/
def invalidRecord : CallerRecord := ⟨false, none, none, none, none, none⟩

/-- The sum of every octet, modulo 256 (R22). -/
def octetSum (bs : List Byte) : Byte := bs.foldl (· + ·) 0

/-- A complete message: type, length n of 1 to 80, n parameter octets and a check octet (R22). DESIGN CHOICE, unsafe (log 65): a message
whose length octet is 0 or above 80 is never complete; its INVALID is set when the window closes. -/
def messageComplete (os : List Byte) : Bool :=
  match os with
  | _ :: n :: _ => decide (1 ≤ n.toNat ∧ n.toNat ≤ 80 ∧ os.length = n.toNat + 3)
  | _ => false

/-- The caller record a complete message gives (Table 1-14). -/
def judgeMessage (p : LinePolicy) (fault : Bool) (os : List Byte) : CallerRecord :=
  match os with
  | t :: n :: rest =>
    if (t &&& p.typeMask) = (p.typeValue &&& p.typeMask) ∧ fault = false ∧ octetSum os = 0 then
      (match readParams 81 (rest.take n.toNat) with
       | some ps => receivedRecord ps
       | none => invalidRecord)
    else invalidRecord
  | _ => invalidRecord

/-- The length of a month (R89). -/
def daysIn (m : Nat) : Nat := if m = 2 then 29 else if m = 4 ∨ m = 6 ∨ m = 9 ∨ m = 11 then 30 else 31

/-- Set the clock from a record, as the set-clock policy allows (R24, R89). -/
def clockFromCaller (l : LineId) (r : CallerRecord) (s : State) : State :=
  match r.time with
  | none => s
  | some t =>
    let set : Tod := ⟨⟨t.month, min t.day (daysIn t.month), t.hour, t.minute, 0⟩, true⟩
    match (s.lc.get l).policy.setClock with
    | .never => s
    | .ifUnset => if s.tod.isSet then s else { s with tod := set }
    | .always => { s with tod := set }

/-- A caller record becomes RECEIVED or INVALID (R24). -/
def recordCaller (l : LineId) (r : CallerRecord) (s : State) : State :=
  clockFromCaller l r (addChange l .caller (s.updLc l fun c => { c with caller := some r }))

/-- Close the caller window (R21): the Signal Unit returns to QUIET, and octets without a complete message make an INVALID record. -/
def closeWindow (l : LineId) (s : State) : State :=
  let r := s.lc.get l
  if r.window = .closed then s
  else
    let s := s.updLc l fun r => { r with window := .closed, callerOctets := [], callerFault := false }
    let s := if r.window = .opened then setMode l .quiet s else s
    if r.callerOctets = [] then s else recordCaller l invalidRecord s

end Sys2Proof.Machine
end

