-- ==== Sys2Proof/Machine/PageLines.lean ====
section
/-! DEFINITION. The octets of a page sent line by line (spec 08 R160): the lines as stored, filled to the minimum line time, between the
opening marker and the return to control. -/

namespace Sys2Proof.Machine

/-- The rate of a rate index in bit/s (Table 8-4). -/
def bitRate (i : Fin 6) : Nat := 2400 * (i.val + 1)

/-- The bits of a training check: rate times 3/2 (R151, Table 8-4). -/
def checkBitCount (i : Fin 6) : Nat := bitRate i * 3 / 2

/-- The minimum octets of a line, data and marker together (R160). -/
def minOctets (i : Fin 6) (lineTime : Nat) : Nat := ceilDiv (bitRate i * lineTime) 8000

/-- The marker pair that ends a stored line (R155). -/
def markerPair : List Byte := [0x00, 0x80]

/-- The data octets of the stored lines, each of which ends at its first marker pair; `got` is the data of the line being read, last
octet first. Octets after the last marker pair make a last part of their own. -/
def splitLines : List Byte → List Byte → List (List Byte) × List Byte
  | got, [] => ([], got.reverse)
  | 0x00 :: got, 0x80 :: bs =>
    let r := splitLines [] bs
    (got.reverse :: r.1, r.2)
  | got, b :: bs => splitLines (b :: got) bs

/-- A line of at least `m` octets: zero octets are inserted before its marker pair (R160). -/
def filledLine (m : Nat) (data : List Byte) : List Byte :=
  data ++ List.replicate (m - (data.length + 2)) 0x00 ++ markerPair

/-- The octets of a page as sent (R160): one marker, the lines with fill, and six marker pairs (log 49). -/
def pageOctets (m : Nat) (stored : List Byte) : List Byte :=
  let r := splitLines [] stored
  markerPair ++ r.1.flatMap (filledLine m) ++ r.2 ++ (List.replicate 6 markerPair).flatten

end Sys2Proof.Machine
end

