-- ==== Sys2Proof/Machine/FaxOps.lean ====
section
/-! DEFINITION. The Fax Controller's operations (spec 08): control frames, negotiation, the training check, pages line by line and in
corrected mode, documents, and the end of a session. -/

namespace Sys2Proof.Machine

/-! ## Notices, states, modes -/

/-- Change the state of a session: STATE is raised at every change (R169). -/
def setFaxState (l : LineId) (st : FaxState) (s : State) : State :=
  if (s.fx.get l).state = some st then s else faxNotice l .state (s.updFx l fun x => { x with state := some st })

/-- The Signal Unit to FAX-SLOW with the session's carrier-loss time (R148, R149). -/
def faxSlow (l : LineId) (s : State) : State :=
  requestMode l .faxSlow 5 5 (some (s.fw.get l).settings.lossTime) s

/-- The rate index in force. -/
def faxRate (l : LineId) (s : State) : Fin 6 :=
  match (s.fx.get l).choice with
  | some c => c.rate
  | none => 0

/-- The Signal Unit to FAX-FAST with both ceilings at the chosen index (R151, R152, R154, R160, R162). -/
def faxFast (l : LineId) (s : State) : State :=
  requestMode l .faxFast (faxRate l s) (faxRate l s) (some (s.fw.get l).settings.lossTime) s

/-- Enable a line's transmitter; while the unit holds the transmit side it starts HELD. -/
def enableTx (l : LineId) (m : ChanMode) (s : State) : State := s.updFc l (Channel.enableTx (s.su.get l).holds m)

/-- Set what the session is doing. -/
def setStep (l : LineId) (st : FaxStep) (s : State) : State := s.updFw l fun w => { w with step := st }

/-- The response timer and the count of repeats (R149). -/
def setResponse (l : LineId) (run : Bool) (s : State) : State := s.updFx l fun x => { x with timer := run }

/-- The channel's receiver in FRAMED and its transmitter OFF in FRAMED, at FAX-SLOW. -/
def backToSlow (l : LineId) (s : State) : State :=
  (faxSlow l (setWatch l false s)).updFc l fun c =>
    { c.disableTx.enableRx .framed with txMode := if c.disableTx.txState = .off then .framed else c.disableTx.txMode }

/-! ## Sending a control frame (R149) -/

/-- The expected frame is acted on: the timer stops and repeats returns to 0. -/
def expectedFrame (l : LineId) (s : State) : State := s.updFx l fun x => { x with timer := false, repeats := 0 }

/-- Offer a control frame, the transmitter enabled in FRAMED if it is OFF; a frame the channel refuses is kept, to be offered again
after its next report (R136, R149). -/
def offerControl (l : LineId) (f : ControlFrame) (s : State) : State :=
  let s := if (s.fc.get l).txState = .off then enableTx l .framed s else s
  let r : FrameRec := ⟨0xFF, .control f, .control (s.fw.get l).serial⟩
  (s.updFc l (Channel.offer r)).updFw l fun w => { w with refused := if (s.fc.get l).takes r then none else some f }

/-- A control frame that was refused is offered again (R136). -/
def offerRefused (l : LineId) (s : State) : State :=
  match (s.fw.get l).refused with
  | some f => offerControl l f s
  | none => s

/-- Send a control frame under a serial number of its own; `after` says what the side does when that frame is SENT. -/
def faxSend (l : LineId) (f : ControlFrame) (after : AfterSent) (s : State) : State :=
  let s := s.updFx l fun x => { x with lastFrame := some f, timer := false }
  offerControl l f (s.updFw l fun w => { w with after := after, aborts := 0, step := .slow, serial := w.serial + 1 })

/-- The side ends the session on its own account: it sends END and ends when END is SENT (R167). -/
def faxSendEnd (l : LineId) (o : FaxOutcome) (s : State) : State := faxSend l .endSession (.finish o) s

/-- Send CHOOSE at the choice in force and enter S-CHOOSE (R150, R153, R161). -/
def sendChoose (l : LineId) (c : Choice) (s : State) : State :=
  let s := setFaxState l .sChoose (s.updFx l fun x => { x with choice := some c })
  faxSend l (.choose c (s.fw.get l).settings.station) .check s

/-! ## The document of a receiver (R155 to R157, R165) -/

/-- Where the document has been written to: its length less the bytes not yet written. -/
def writtenTo (l : LineId) (n : Fin 128) (s : State) : Nat := s.store.dir[n].length - (s.fw.get l).unwritten.length

/-- Every line whose last byte has been written is committed (R157): PROGRESS at every N-th commit of the page. -/
def commitLines (l : LineId) : List Nat → State → State
  | [], s => s.updFw l fun w => { w with lineEnds := [] }
  | e :: es, s =>
    match (s.fx.get l).document, (s.fw.get l).pageEntry with
    | some n, some k =>
      if e ≤ writtenTo l n s then
        let s := s.updStore fun st => (st.updDir n fun d => { d with committed := e }).updPage k fun p =>
          { p with committedLines := p.committedLines + 1, byteLength := e - p.start }
        let every := (s.fxSet.get l).progress
        let s := if 0 < every ∧ s.store.pages[k].committedLines % every = 0 then faxNotice l .progress s else s
        commitLines l es s
      else s.updFw l fun w => { w with lineEnds := e :: es }
    | _, _ => s

/-- Write the next bytes of the receiver's staging buffer to the DRAM: those up to the next burst boundary (R157). -/
def writeLineBurst (l : LineId) (n : Fin 128) (s : State) : State :=
  let w := writtenTo l n s
  let take := min (Config.burstBytes - w % Config.burstBytes) (s.fw.get l).unwritten.length
  let s := s.updStore fun st =>
    { st with dram := writeContent st.dir[n].blocks w ((s.fw.get l).unwritten.take take) st.dram }
  let s := s.updFw l fun f => { f with unwritten := f.unwritten.drop take }
  commitLines l (s.fw.get l).lineEnds s

/-- Write the next part of the oldest corrected frame waiting to be written (R163). -/
def writeFrameBurst (l : LineId) (n : Fin 128) (s : State) : State :=
  match (s.fw.get l).frameWrites with
  | [] => s
  | (off, bs) :: rest =>
    let take := Config.burstBytes - off % Config.burstBytes
    let s := s.updStore fun st => { st with dram := writeContent st.dir[n].blocks off (bs.take take) st.dram }
    s.updFw l fun w => { w with frameWrites := if (bs.drop take) = [] then rest else (off + take, bs.drop take) :: rest }

/-- Write everything a receiver's client still holds, within the step that needs it (log 20). -/
def flushFax (l : LineId) (s : State) : State :=
  match (s.fx.get l).document with
  | none => s
  | some n =>
    let w := s.fw.get l
    let s := s.updStore fun st =>
      { st with dram := w.frameWrites.foldl (fun m x => writeContent st.dir[n].blocks x.1 x.2 m)
                  (writeContent st.dir[n].blocks (writtenTo l n s) w.unwritten st.dram) }
    let s := s.updFw l fun w => { w with unwritten := [], frameWrites := [], burst := false }
    commitLines l (s.fw.get l).lineEnds s

/-- The page in progress goes: cut back to its first byte and its page entry released (R69, R72). -/
def forgetPage (l : LineId) (s : State) : State :=
  let s := s.updFw l fun w => 
    { w with unwritten := [], lineEnds := [], waitingLine := none, frameWrites := [], blockOpen := false, burst := false }
  match (s.fx.get l).document, (s.fw.get l).pageEntry with
  | some n, some k =>
    (onStore (Store.releasePage k) (cutEntry n s.store.pages[k].start s)).updFw l fun w => { w with pageEntry := none }
  | _, _ => s

/-- The page in progress is dropped (R159, R165), and the masters learn of the cut-back from a FAX notice (R72). DESIGN CHOICE, unsafe
(log 69): its summary is PAGE. -/
def dropPage (l : LineId) (s : State) : State :=
  if (s.fx.get l).document.isSome ∧ (s.fw.get l).pageEntry.isSome then faxNotice l .page (forgetPage l s) else forgetPage l s

/-- The session turns STORE-FULL (R71, R165): the page in progress is dropped and TRUNCATED set. -/
def faxStoreFull (l : LineId) (s : State) : State :=
  let s := dropPage l s
  let s := match (s.fx.get l).document with
    | some n => onStore (fun st => st.updDir n fun e => { e with truncated := true }) s
    | none => s
  s.updFw l fun w => { w with storeFull := true }

/-- The FAX-IN entry of the session, asked for if there is none yet (R154). -/
def faxDocument (l : LineId) (s : State) : Option (Fin 128 × State) :=
  match (s.fx.get l).document with
  | some n => some (n, s)
  | none =>
    (s.store.newEntry s.tod ⟨.faxIn, .line l, none, (s.fx.get l).farStation, none, (s.lc.get l).caller, .lineWrite l⟩).map fun r =>
      (r.1, (onStore (fun _ => r.2) s).updFx l fun x => { x with document := some r.1 })

/-- A page of the document begins (R69, R154, R163): its page entry is asked for, and the page increases by 1 unless it is a resend; a
refusal makes the session STORE-FULL. -/
def beginPage (l : LineId) (s : State) : State :=
  match faxDocument l s with
  | none => faxStoreFull l s
  | some (n, s) =>
    let res := match (s.fx.get l).choice with | some c => c.resolution | none => .standard
    match s.store.newPage n res s.store.dir[n].length with
    | none => faxStoreFull l s
    | some (k, st) =>
      ((onStore (fun _ => st) s).updFw l fun w => { w with pageEntry := some k }).updFx l fun x =>
        { x with page := if x.resent then x.page else x.page + 1 }

/-- The page entry's counts follow L, B and C (R157). -/
def followCounts (l : LineId) (s : State) : State :=
  match (s.fw.get l).pageEntry with
  | none => s
  | some k =>
    let x := s.fx.get l
    s.updStore fun st => st.updPage k fun p =>
      { p with received := x.received, badLines := x.badLines, longestBad := x.longestBad }

/-- Count a completed line (R156). -/
def countLine (l : LineId) (bad : Bool) (s : State) : State :=
  followCounts l (s.updFx l fun x =>
    let run := if bad then x.badRun + 1 else 0
    { x with received := x.received + 1, badLines := if bad then x.badLines + 1 else x.badLines, badRun := run,
             longestBad := max x.longestBad run })

/-- The blocks a document needs for a length, asked for one by one as an unbound client (R71, R155). -/
def growFax (n : Fin 128) (len : Nat) : Nat → Store → Option Store
  | 0, st => some st
  | k + 1, st =>
    if st.dir[n].blocks.length < ceilDiv len Config.blockBytes then (st.allocateUnbound n).bind (growFax n len k) else some st

/-- The fax line client takes a line, which the two staging buffers have room for (R155). -/
def takeLine (l : LineId) (n : Fin 128) (line : List Byte) (s : State) : State :=
  let len := s.store.dir[n].length + line.length
  match growFax n len 2 s.store with
  | none => faxStoreFull l s
  | some st =>
    (onStore (fun _ => st.updDir n fun e => { e with length := len }) s).updFw l fun w =>
      { w with unwritten := w.unwritten ++ line, lineEnds := w.lineEnds ++ [len] }

/-- The client can take a line: its bytes lie in the block being written or the next (R88, R155). -/
def lineFits (l : LineId) (n : Fin 128) (line : List Byte) (s : State) : Bool :=
  decide ((s.store.dir[n].length + line.length - 1) / Config.blockBytes ≤ writtenTo l n s / Config.blockBytes + 1)

/-- Pass a completed line to the client (R155, R156): it is taken, or waits in its buffer, or where a line waits already the newer
one is dropped, counted bad, and LATE raised. -/
def passLine (l : LineId) (data : List Byte) (bad : Bool) (s : State) : State :=
  if (s.fw.get l).storeFull then s
  else
    let line := data ++ [0x00, 0x80]
    match (s.fx.get l).document with
    | none => s
    | some n =>
      if (s.fw.get l).waitingLine.isSome then faxNotice l .late (countLine l true s)
      else if lineFits l n line s then takeLine l n line (countLine l bad s)
      else (countLine l bad s).updFw l fun w => { w with waitingLine := some line }

/-- A line that waited is taken as soon as it fits (R155). -/
def takeWaiting (l : LineId) (s : State) : State :=
  match (s.fx.get l).document, (s.fw.get l).waitingLine with
  | some n, some line =>
    if lineFits l n line s then takeLine l n line (s.updFw l fun w => { w with waitingLine := none }) else s
  | _, _ => s

/-- Pending empty lines before a line with data are counted and stored as bad lines (R156). -/
def passEmpties (l : LineId) : Nat → State → State
  | 0, s => s
  | k + 1, s => passEmpties l k (passLine l [] true s)

/-- Bits packed least significant first, the last octet padded with zero bits (R155). -/
def padOctets (bits : List Bool) : List Byte := bitsOctets (bits ++ List.replicate ((8 - bits.length % 8) % 8) false)

/-- The page data ends (R154): the watch is disarmed, the unit returns to FAX-SLOW, pending empty lines are dropped, and the
receiver waits for PAGE-DONE. A page with no line has no page entry (R158). -/
def endPageData (l : LineId) (s : State) : State :=
  let s := if (s.fx.get l).received = 0 then forgetPage l s else s
  let s := s.updFw l fun w =>
    { w with step := .slow, after := .wait, pendingEmpty := 0, lineBits := [], zeroRun := 0, started := false }
  setResponse l true (setFaxState l .rVerdict (backToSlow l s))

/-- A line-end marker completes (R154 to R156). -/
def marker (l : LineId) (s : State) : State :=
  let w := s.fw.get l
  let clear := fun (s : State) => s.updFw l fun w =>
    { w with zeroRun := 0, lineBits := [], lineOver := false, lineSpoiled := false }
  if !w.started then clear (beginPage l (s.updFw l fun w => { w with started := true }))
  else if w.lineBits = [] then
    (if w.pendingEmpty + 1 = 6 then endPageData l (clear s)
     else clear (s.updFw l fun w => { w with pendingEmpty := w.pendingEmpty + 1 }))
  else
    let s := passEmpties l w.pendingEmpty (s.updFw l fun w => { w with pendingEmpty := 0 })
    clear (passLine l (padOctets w.lineBits) (w.lineOver || w.lineSpoiled) s)

/-- One bit of page data (R155). -/
def pageBit (l : LineId) (b : Bool) (s : State) : State :=
  let w := s.fw.get l
  if w.step ≠ .pageData then s
  else if b = false then s.updFw l fun w => { w with zeroRun := w.zeroRun + 1 }
  else if 11 ≤ w.zeroRun then marker l s
  else if w.started then
    let bits := w.lineBits ++ List.replicate w.zeroRun false ++ [true]
    s.updFw l fun w =>
      { w with zeroRun := 0, lineBits := bits.take 3456, lineOver := w.lineOver || decide (3456 < bits.length) }
  else s.updFw l fun w => { w with zeroRun := 0 }

/-! ## The page verdict (R158, R159) -/

/-- The verdict of a page (R158). -/
def judgePage (lines bad run t u : Nat) : PageVerdict :=
  if 0 < lines ∧ bad * 100 ≤ lines * t ∧ run ≤ u then .good
  else if 0 < lines ∧ bad * 100 ≤ 2 * lines * t ∧ run ≤ 2 * u then .poor
  else .bad

/-- The page in progress is kept with a verdict (R159): its byte length is fixed, it counts, and PAGE is raised. A page without a page
entry keeps nothing and ends the resend alone (R158, log 50). -/
def keepPage (l : LineId) (v : PageVerdict) (s : State) : State :=
  let ended := fun (s : State) => s.updFx l fun x => { x with resent := false }
  match (s.fw.get l).pageEntry with
  | none => ended s
  | some _ =>
    let s := flushFax l (takeWaiting l (flushFax l s))
    match (s.fx.get l).document, (s.fw.get l).pageEntry with
    | some n, some k =>
      let s := s.updStore fun st => st.updPage k fun p => { p with verdict := v, byteLength := st.dir[n].length - p.start }
      faxNotice l .page ((ended (s.updFw l fun w => { w with pageEntry := none })).updFx l fun x => { x with kept := x.kept + 1 })
    | _, _ => ended s

/-- The page in progress ends without a verdict of its own (R165, log 47): kept with verdict BAD if it holds committed bytes, its
unwritten tail returned, else dropped. -/
def closePage (l : LineId) (s : State) : State :=
  let s := flushFax l (takeWaiting l (flushFax l s))
  match (s.fx.get l).document, (s.fw.get l).pageEntry with
  | some n, some k =>
    if s.store.pages[k].start < s.store.dir[n].committed then
      keepPage l .bad (cutEntry n s.store.dir[n].length (s.updFw l fun w => { w with blockOpen := false, frameWrites := [] }))
    else dropPage l s
  | _, _ => s

/-- The response to a page, and where the receiver goes after it (R159). -/
def answerPage (l : LineId) (v : PageVerdict) (e : PageEnd) (s : State) : State :=
  let resp : ControlFrame := if v = .good then .pageOk else .pageRetrain
  if e = .last then faxSend l resp .wait (setFaxState l .rEnd s)
  else if v = .good ∧ e = .more then faxSend l resp .page (setFaxState l .rPage s)
  else faxSend l resp .wait s

/-- A page has been kept and is answered, unless keeping it turned the session STORE-FULL (R159, R165). -/
def answerKept (l : LineId) (answer : State → State) (s : State) : State :=
  if (s.fw.get l).storeFull then faxSendEnd l .storeFull s else answer s

/-- PAGE-DONE in R-VERDICT (R159, R165). -/
def takePageDone (l : LineId) (e : PageEnd) (s : State) : State :=
  if (s.fw.get l).storeFull then faxSendEnd l .storeFull s
  else if (s.fw.get l).trained = false then
    match (s.fx.get l).lastFrame with
    | some f => faxSend l f .wait s
    | none => s
  else
    let x := s.fx.get l
    let v := judgePage x.received x.badLines x.longestBad (s.fxSet.get l).tolerance (s.fxSet.get l).runLimit
    let s := s.updFw l fun w => { w with trained := false, lastVerdict := some v }
    if v = .bad ∧ x.resent = false then
      faxSend l .pageResend .wait ((dropPage l s).updFx l fun x => { x with resent := true })
    else answerKept l (answerPage l v e) (keepPage l v s)

/-! ## The end of a session (R167) -/

/-- The receiver's document at the end of a session (R165). -/
def endDocument (l : LineId) (s : State) : State :=
  let s := closePage l s
  match (s.fx.get l).document with
  | none => askCallNote l s
  | some n => if 0 < (s.fx.get l).kept then completeWrite n none s else askCallNote l (discardWrite n s)

/-- Steps 1 to 4 of the end of a session (R167). What FAX STATUS still shows is kept (R146). -/
def finishFax (l : LineId) (o : FaxOutcome) (s : State) : State :=
  let role := (s.fx.get l).role
  let s := if role = .receiver then endDocument l s else s
  let s := s.updFc l Channel.unbind
  let s := s.updFx l fun x =>
    { FaxSession.initial with farStation := x.farStation, page := x.page, received := x.received, badLines := x.badLines,
                              longestBad := x.longestBad, badRun := x.badRun, block := x.block, missing := x.missing,
                              error := x.error, kept := x.kept, outcome := some o }
  let s := s.updFw l fun w => { FaxWork.initial with lastVerdict := w.lastVerdict }
  let s := faxNotice l .ended s
  if role = .sender then faxToQueue l o s else s

/-- A session ends on its own (R167): all five steps. -/
def endFax (l : LineId) (o : FaxOutcome) (s : State) : State := blockClear l (finishFax l o s)

/-- The line of a session has cleared (R167): steps 1 to 4, NO-CARRIER for a loop break and ABORTED otherwise. -/
def faxCleared (l : LineId) (loopBreak : Bool) (s : State) : State :=
  if (s.fx.get l).role = .none then s else finishFax l (if loopBreak then .noCarrier else .aborted) s

/-! ## Starting a session (R148) -/

/-- Bind the channel and set the session's records. -/
def openFax (l : LineId) (role : FaxRole) (st : FaxStep) (s : State) : State :=
  let s := s.updFx l fun _ => { FaxSession.initial with role := role }
  let s := s.updFw l fun _ => { FaxWork.initial with settings := s.fxSet.get l, step := st }
  faxSlow l (s.updFc l (Channel.bind .fx 0xFF .exact 300 .flags))

/-- A receiver session starts with the answer tone (R148); none if the store cannot take a fax or the channel is bound. -/
def startReceiver (l : LineId) (s : State) : Option State :=
  if s.store.takesFax ∧ (s.fc.get l).owner = .none then
    some (faxNotice l .state (startTone l .answerTone (openFax l .receiver .answerTone s)))
  else none

/-- A sender session starts for a queue entry (R148); none if the channel is bound (R133). -/
def startSender (l : LineId) (n : Fin 8) (s : State) : Option State :=
  if (s.fc.get l).owner = .none then
    let s := openFax l .sender .slow s
    let s := s.updFx l fun x => { x with document := s.queue[n].message, timer := true }
    some (setFaxState l .sWaitOffer (s.updFc l (Channel.enableRx .framed)))
  else none

/-- The answer tone is done: OFFER is sent and the receiver enters R-OFFER (R148, R150). -/
def answerToneDone (l : LineId) (s : State) : State :=
  let t := (s.fw.get l).settings
  let o : Offer := ⟨t.maxRate, t.fine, t.corrected, t.minLineTime, true, t.station⟩
  faxSend l (.offer o) .wait (setFaxState l .rOffer (s.updFc l (Channel.enableRx .framed)))

/-! ## The receiver's check and pages (R152, R154, R163, R164) -/

/-- A CHOOSE that meets the offer (R150). -/
def meetsOffer (l : LineId) (c : Choice) (s : State) : Bool :=
  let t := (s.fw.get l).settings
  decide (c.rate ≤ t.maxRate ∧ (c.resolution = .fine → t.fine = true) ∧ (c.corrected = true → t.corrected = true) ∧
    t.minLineTime ≤ c.minLineTime)

/-- The page in progress goes on after the check only where both choices are of corrected mode (R152, R164). -/
def pageGoesOn (l : LineId) (c : Choice) (s : State) : Bool :=
  match (s.fx.get l).choice with
  | some o => o.corrected && c.corrected
  | none => false

/-- Enter R-CHECK (R152): a page in progress that the new choice does not go on with is closed (log 47). -/
def enterCheck (l : LineId) (c : Choice) (st : Option (List Byte)) (s : State) : State :=
  let s := if pageGoesOn l c s then s else closePage l s
  let s := s.updFx l fun x =>
    { x with choice := some c, farStation := st.orElse fun _ => x.farStation, timer := false, repeats := 0 }
  let s := setFaxState l .rCheck s
  setStep l .checkTraining ((faxFast l s).updFc l (Channel.enableRx .transparent))

/-- The block number a receiver expects of a page that has not begun is 0 (R162 to R164). -/
def expectFirstBlock (l : LineId) (s : State) : State :=
  if (s.fw.get l).pageEntry.isNone then
    (s.updFx l fun x => { x with block := 0 }).updFw l fun w => { w with lastBlock := none, written := [] }
  else s

/-- The check is judged (R152). -/
def judgeCheck (l : LineId) (pass : Bool) (s : State) : State :=
  let s := backToSlow l s
  if pass then
    match (s.fx.get l).choice with
    | some c =>
      if c.corrected then faxSend l .checkOk .block (setFaxState l .rBlock (expectFirstBlock l s)) else faxSend l .checkOk .page (setFaxState l .rPage s)
    | none => s
  else faxSend l .checkFail .wait (setFaxState l .rVerdict s)

/-- The ones among the first bits of an octet. -/
def onesIn (b : Byte) (k : Nat) : Nat := ((octetBits b).take k).countP id

/-- An octet of the check (R152). -/
def checkOctet (l : LineId) (b : Byte) (bits ones : Nat) (s : State) : State :=
  let total := checkBitCount (faxRate l s)
  let k := min 8 (total - bits)
  let e := ones + onesIn b k
  if total ≤ bits + k then judgeCheck l (decide (e ≤ total / 1000)) s
  else setStep l (.checkBits (bits + k) e) s

/-- The receiver goes to FAX-FAST for a page (R154). -/
def startPage (l : LineId) (s : State) : State :=
  let s := s.updFx l fun x => { x with received := 0, badLines := 0, longestBad := 0, badRun := 0, timer := false, repeats := 0 }
  let s := s.updFw l fun w =>
    { w with step := .pageTraining, trained := false, started := false, zeroRun := 0, lineBits := [], lineOver := false,
             lineSpoiled := false, pendingEmpty := 0 }
  (faxFast l s).updFc l (Channel.enableRx .transparent)

/-- The receiver goes to FAX-FAST for a round (R163). -/
def startRound (l : LineId) (s : State) : State :=
  (faxFast l (setStep l .blockTraining (setResponse l false s))).updFc l (Channel.enableRx .framed)

/-- The first round of a block begins it: entry and page at the first block of a page, and the block area (R163). -/
def beginBlock (l : LineId) (s : State) : State :=
  let s := if (s.fw.get l).pageEntry.isNone ∧ (s.fw.get l).storeFull = false then
      beginPage l (s.updFx l fun x => { x with block := 0 }) else s
  match (s.fx.get l).document, (s.fw.get l).storeFull with
  | some n, false =>
    match s.store.allocateArea n with
    | none => faxStoreFull l s
    | some st =>
      ((onStore (fun _ => st) s).updFw l fun w =>
        { w with blockOpen := true, blockBase := st.dir[n].length, written := [] }).updFx l fun x => { x with error := none }
  | _, _ => s

/-- The round ends (R163): the watch is disarmed and the receiver waits at FAX-SLOW. -/
def endRound (l : LineId) (s : State) : State :=
  let s := s.updFw l fun w => { w with step := .slow, after := .wait }
  setResponse l true (backToSlow l s)

/-- The first thing that goes wrong in a block (R163). -/
def blockError (l : LineId) (e : BlockError) (s : State) : State :=
  s.updFx l fun x => { x with error := x.error.orElse fun _ => some e }

/-- A page frame of the block (R163): its octets go to their place, or LATE where the client holds four frames, the size of its two
staging buffers (R88, log 81). -/
def takeFrame (l : LineId) (k : Nat) (data : List Byte) (s : State) : State :=
  if (s.fw.get l).blockOpen = false then s
  else if 4 ≤ (s.fw.get l).frameWrites.length then faxNotice l .late (blockError l .late s)
  else s.updFw l fun w =>
    { w with written := (k, data.length) :: w.written.filter (fun x => x.1 != k),
             frameWrites := if data = [] then w.frameWrites else w.frameWrites ++ [(w.blockBase + 256 * k, data)] }

/-- A record while a round is received (R163). -/
def roundRecord (l : LineId) (r : RxRecord) (s : State) : State :=
  match r.verdict, r.content with
  | .good, .octets [b] => if b = 0xFF then endRound l s else if b.toNat < 64 then takeFrame l b.toNat [] s else s
  | .good, .octets (b :: bs) => if b.toNat < 64 ∧ bs.length ≤ 256 then takeFrame l b.toNat bs s else s
  | .good, _ => s
  | v, _ => blockError l (.verdict v) s

/-- The frames of a block still missing (R164). -/
def missingFrames (w : List (Nat × Nat)) (count : Nat) : List Nat :=
  (List.range count).filter fun k =>
    match w.find? fun x => x.1 == k with
    | none => true
    | some x => decide (k + 1 < count ∧ x.2 < 256)

/-- The page in progress reaches a byte of the document (Table 4-3, log 48). -/
def pageReaches (l : LineId) (stop : Nat) (s : State) : State :=
  match (s.fw.get l).pageEntry with
  | some k => s.updStore fun st => st.updPage k fun p => { p with byteLength := stop - p.start }
  | none => s

/-- BLOCK-END in R-BLOCK (R164, R165): a repeat for the block completed just before is answered whether or not the next has begun. -/
def takeBlockEnd (l : LineId) (b count : Nat) (s : State) : State :=
  let x := s.fx.get l
  let w := s.fw.get l
  if w.storeFull then faxSendEnd l .storeFull s
  else if w.lastBlock = some b ∧ (w.blockOpen = false ∨ x.block ≠ b) then
    faxSend l (.blockStatus b []) (if w.pageDone then .wait else .block) s
  else if x.block ≠ b then s
  else
    let missing := missingFrames w.written count
    let s := s.updFx l fun x => { x with missing := missing, timer := false, repeats := 0 }
    if missing ≠ [] ∨ w.blockOpen = false then faxSend l (.blockStatus b missing) .block (faxNotice l .block s)
    else
      let lastLen := match w.written.find? fun y => y.1 == count - 1 with | some y => y.2 | none => 0
      let stop := w.blockBase + 256 * (count - 1) + lastLen
      let s := flushFax l s
      let s := match x.document with
        | some n => pageReaches l stop (cutEntry n stop (s.updStore fun st => st.setLength n stop stop))
        | none => s
      let last := decide (count < 64 ∨ lastLen < 256)
      let s := s.updFw l fun w => { w with blockOpen := false, lastBlock := some b, pageDone := last, written := [] }
      let s := faxNotice l .block s
      if last then faxSend l (.blockStatus b []) .wait s
      else faxSend l (.blockStatus b []) .block (s.updFx l fun x => { x with block := (b + 1) % 256 })

/-- PAGE-DONE after the last block of a page in corrected mode (R164): PAGE-OK with the verdict GOOD. -/
def takeBlockPageDone (l : LineId) (e : PageEnd) (s : State) : State :=
  if (s.fw.get l).storeFull then faxSendEnd l .storeFull s
  else if (s.fw.get l).pageDone = false then s
  else
    let s := expectedFrame l (s.updFw l fun w => { w with pageDone := false, lastVerdict := some .good })
    let answer := fun (s : State) => match e with
      | .last => faxSend l .pageOk .wait (setFaxState l .rEnd s)
      | .more => faxSend l .pageOk .block s
      | .change => faxSend l .pageOk .wait (setFaxState l .rVerdict s)
    answerKept l answer (expectFirstBlock l (keepPage l .good s))

/-! ## The sender (R150, R151, R153, R160 to R162) -/

/-- The page entry of page `k`, counted from 1, of the document being sent. -/
def sentPage (l : LineId) (k : Nat) (s : State) : Option PageEntry :=
  match (s.fx.get l).document with
  | none => none
  | some n => (s.store.dir[n].pageList[k - 1]?).map fun p => s.store.pages[p]

/-- The number of pages of the document being sent. -/
def sentPages (l : LineId) (s : State) : Nat :=
  match (s.fx.get l).document with
  | none => 0
  | some n => s.store.dir[n].pageList.length

/-- The resolution of a page. -/
def resolutionOf (l : LineId) (k : Nat) (s : State) : Resolution :=
  match sentPage l k s with
  | some p => p.resolution
  | none => .standard

/-- The far offer allows the resolution. -/
def offerTakes (l : LineId) (r : Resolution) (s : State) : Bool :=
  match (s.fx.get l).offer with
  | some o => r == .standard || o.fine
  | none => false

/-- Choose page `k`: CHOOSE with its resolution, or END with PAGE-FAILED where the offer does not take it (R150, R161). -/
def choosePage (l : LineId) (k : Nat) (s : State) : State :=
  match (s.fx.get l).choice with
  | none => s
  | some c =>
    let s := s.updFx l fun x => { x with page := k }
    if offerTakes l (resolutionOf l k s) s then sendChoose l { c with resolution := resolutionOf l k s } s
    else faxSendEnd l .pageFailed s

/-- OFFER in S-WAIT-OFFER (R150). -/
def takeOffer (l : LineId) (o : Offer) (s : State) : State :=
  let t := (s.fw.get l).settings
  let s := s.updFx l fun x => { x with offer := some o, farStation := o.station, timer := false, repeats := 0, page := 1 }
  let c : Choice := ⟨if t.maxRate ≤ o.maxRate then t.maxRate else o.maxRate, resolutionOf l 1 s, t.corrected && o.corrected, o.minLineTime⟩
  if o.ready = false then faxSendEnd l .pageFailed s
  else choosePage l 1 (s.updFx l fun x => { x with choice := some c })

/-- CHOOSE is SENT: the check begins (R151). -/
def startCheck (l : LineId) (s : State) : State := enableTx l .transparent (setStep l .checkTraining (faxFast l s))

/-- The sender returns to FAX-SLOW and waits in S-CHECK (R151). -/
def waitCheck (l : LineId) (s : State) : State :=
  setResponse l true (setFaxState l .sCheck (setStep l .slow (backToSlow l s)))

/-- The sender's reading handle. -/
def senderHolder (l : LineId) (s : State) : Option Holder :=
  match (s.lc.get l).entryRef with
  | some n => some (.entry n)
  | none => none

/-- Set the sender's handle to a byte of the document (R76, R166). -/
def seekSender (l : LineId) (pos : Nat) (s : State) : State :=
  match senderHolder l s with
  | some h => onStore (Store.seek h pos) s
  | none => s

/-- The sender starts the page in progress: line by line, or block by block in corrected mode (R160, R162). -/
def sendLines (l : LineId) (s : State) : State :=
  let start := match sentPage l (s.fx.get l).page s with | some p => p.start | none => 0
  let s := seekSender l start s
  let s := s.updFw l fun w => { w with step := .pageTraining, txNext := start, served := 0, burst := false }
  enableTx l .transparent (faxFast l (setFaxState l .sPage s))

/-- The page octets of a block that begins at a byte of the page (R162). -/
def blockOctets (l : LineId) (base : Nat) (s : State) : Nat :=
  match sentPage l (s.fx.get l).page s with
  | some p => min 16384 (p.byteLength - base)
  | none => 0

/-- The frame count of a block of so many octets (R162): a block of none has one frame. -/
def frameCount (octets : Nat) : Nat := if octets = 0 then 1 else ceilDiv octets 256

/-- The frames of a later round (R162): those of the missing list, in ascending number. DESIGN CHOICE, unsafe (log 82): a number the block has
no frame of is passed over. -/
def framesAgain (missing : List Nat) (count : Nat) : List Nat := (List.range count).filter fun k => missing.contains k

/-- A round begins at FAX-FAST (R162). -/
def sendRound (l : LineId) (frames : List Nat) (s : State) : State :=
  let base := match sentPage l (s.fx.get l).page s with | some p => p.start + (s.fw.get l).blockBase | none => 0
  let s := seekSender l base s
  let s := s.updFw l fun w =>
    { w with step := .blockTraining, toSend := frames, roundEnds := 2, txNext := base, served := 0, burst := false }
  let s := setFaxState l .sBlock (s.updFx l fun x => { x with round := x.round + 1, timer := false })
  enableTx l .framed (faxFast l s)

/-- A block begins (R162). -/
def sendBlock (l : LineId) (base : Nat) (s : State) : State :=
  let s := s.updFw l fun w => { w with blockBase := base, resumeBlock := false }
  let s := s.updFx l fun x => { x with block := base / 16384 % 256, round := 0, lowered := false, missing := [] }
  sendRound l (List.range (frameCount (blockOctets l base s))) s

/-- The sender sends the page in progress (R160, R162). -/
def sendPage (l : LineId) (s : State) : State :=
  match (s.fx.get l).choice with
  | none => s
  | some c => if c.corrected then sendBlock l 0 s else sendLines l s

/-- What PAGE-DONE says of the pages that follow (R160). -/
def pageEndOf (l : LineId) (s : State) : PageEnd :=
  let k := (s.fx.get l).page
  if sentPages l s ≤ k then .last
  else match (s.fx.get l).choice with
    | some c => if resolutionOf l (k + 1) s = c.resolution then .more else .change
    | none => .last

/-- Send PAGE-DONE and wait for the verdict (R160, R162). -/
def sendPageDone (l : LineId) (s : State) : State :=
  let e := pageEndOf l s
  faxSend l (.pageDone e) .wait (setFaxState l .sAwaitVerdict (s.updFw l fun w => { w with pageEnd := e }))

/-- The octets of the page in progress as they go out (R160): none where there is no page. -/
def pageWire (l : LineId) (s : State) : List Byte :=
  match (s.fx.get l).document, (s.fx.get l).choice, sentPage l (s.fx.get l).page s with
  | some n, some c, some p =>
    pageOctets (minOctets c.rate c.minLineTime) (readContent s.store.dir[n].blocks p.start p.byteLength s.store.dram)
  | _, _, _ => []

/-- The page data has been sent (R160), its bits shown by the channel's `wire`: the handle stands at the page's end. -/
def linesSent (l : LineId) (s : State) : State :=
  let s := s.updFc l (Channel.sendOctets (octetsBits (pageWire l s)))
  let s := match sentPage l (s.fx.get l).page s with
    | some p => seekSender l (p.start + p.byteLength) s
    | none => s
  sendPageDone l (backToSlow l s)

/-- The round is over: BLOCK-END at FAX-SLOW (R162). -/
def sendBlockEnd (l : LineId) (s : State) : State :=
  let count := frameCount (blockOctets l (s.fw.get l).blockBase s)
  let s := s.updFw l fun w => { w with toSend := [], roundEnds := 0 }
  faxSend l (.blockEnd (s.fx.get l).block count) .wait (backToSlow l s)

/-- The record of the next frame of a round: a page frame, or a round-end frame (R162). -/
def nextFrame (l : LineId) (s : State) : Option FrameRec :=
  match (s.fw.get l).toSend, (s.fw.get l).roundEnds with
  | k :: _, _ => some ⟨0xFF, .page k (min 256 (blockOctets l (s.fw.get l).blockBase s - 256 * k)), .pageFrame k⟩
  | [], 0 => none
  | [], n => some ⟨0xFF, .octets [0xFF], .roundEnd (n == 1)⟩

/-- Offer frames while the queue has room (R136, R162). -/
def pumpFrames (l : LineId) : Nat → State → State
  | 0, s => s
  | k + 1, s =>
    if (s.fw.get l).step ≠ .blockData then s
    else match nextFrame l s with
      | none => s
      | some r =>
        if (s.fc.get l).takes r then
          pumpFrames l k ((s.updFc l (Channel.offer r)).updFw l fun w =>
            match w.toSend with
            | _ :: ks => { w with toSend := ks }
            | [] => { w with roundEnds := w.roundEnds - 1 })
        else s

/-- CHECK-FAIL in S-CHECK (R153). -/
def takeCheckFail (l : LineId) (s : State) : State :=
  match (s.fx.get l).choice with
  | none => s
  | some c => if h : 0 < c.rate.val then sendChoose l { c with rate := ⟨c.rate.val - 1, by omega⟩ } s else faxSendEnd l .checkFailed s

/-- BLOCK-STATUS in S-BLOCK (R162). -/
def takeBlockStatus (l : LineId) (b : Nat) (missing : List Nat) (s : State) : State :=
  let x := s.fx.get l
  if x.block ≠ b then s
  else
    let s := s.updFx l fun x => { x with missing := missing, timer := false, repeats := 0 }
    let base := (s.fw.get l).blockBase
    let octets := blockOctets l base s
    if missing = [] then (if octets = 16384 then sendBlock l (base + 16384) s else sendPageDone l s)
    else if x.round < 4 then sendRound l (framesAgain missing (frameCount octets)) s
    else match x.choice with
      | none => s
      | some c =>
        if h : 0 < c.rate.val ∧ x.lowered = false then
          sendChoose l { c with rate := ⟨c.rate.val - 1, by omega⟩ }
            ((s.updFx l fun x => { x with lowered := true, round := 0 }).updFw l fun w => { w with resumeBlock := true })
        else faxSendEnd l .pageFailed s

/-- CHECK-OK in S-CHECK: back to the block in progress, or the page (R151, R161, R162). -/
def takeCheckOk (l : LineId) (s : State) : State :=
  if (s.fw.get l).resumeBlock then
    sendRound l (framesAgain (s.fx.get l).missing (frameCount (blockOctets l (s.fw.get l).blockBase s)))
      (s.updFw l fun w => { w with resumeBlock := false })
  else sendPage l s

/-- The receiver's answer to a page (R161). -/
def takePageAnswer (l : LineId) (f : ControlFrame) (s : State) : State :=
  let k := (s.fx.get l).page
  match f, (s.fw.get l).pageEnd with
  | .pageResend, _ => choosePage l k (s.updFx l fun x => { x with resent := true })
  | _, .last => faxSendEnd l .done (setFaxState l .sEnd s)
  | .pageOk, .more => sendPage l (s.updFx l fun x => { x with page := k + 1, resent := false })
  | _, _ => choosePage l (k + 1) (s.updFx l fun x => { x with resent := false })

/-! ## Taking a control frame (R149) -/

/-- A GOOD control frame taken by a session, by its state; a frame not expected is ignored (R149, R150, R152, R159, R161, R162, R164). -/
def takeControl (l : LineId) (f : ControlFrame) (s : State) : State :=
  let x := s.fx.get l
  match x.state, f with
  | some .rOffer, .choose c st => if meetsOffer l c s then enterCheck l c st s else s
  | some .rOffer, .endSession => endFax l .checkFailed s
  | some .rVerdict, .choose c st => if meetsOffer l c s then enterCheck l c st s else s
  | some .rVerdict, .pageDone e => takePageDone l e (expectedFrame l s)
  | some .rVerdict, .endSession => endFax l (if x.lastFrame = some .checkFail then .checkFailed else .pageFailed) s
  | some .rPage, .choose c st => if meetsOffer l c s then enterCheck l c st s else s
  | some .rPage, .endSession => endFax l .pageFailed s
  | some .rBlock, .choose c st => if meetsOffer l c s then enterCheck l c st s else s
  | some .rBlock, .blockEnd b n => takeBlockEnd l b n s
  | some .rBlock, .pageDone e => takeBlockPageDone l e s
  | some .rBlock, .endSession => endFax l .pageFailed s
  | some .rEnd, .endSession => endFax l .done s
  | some .sEnd, _ => s
  | some .sWaitOffer, .offer o => takeOffer l o s
  | some .sCheck, .checkOk => takeCheckOk l (expectedFrame l s)
  | some .sCheck, .checkFail => takeCheckFail l (expectedFrame l s)
  | some .sBlock, .blockStatus b m => takeBlockStatus l b m s
  | some .sAwaitVerdict, .pageOk => takePageAnswer l f (expectedFrame l s)
  | some .sAwaitVerdict, .pageRetrain => takePageAnswer l f (expectedFrame l s)
  | some .sAwaitVerdict, .pageResend => takePageAnswer l f (expectedFrame l s)
  | some .sWaitOffer, .endSession => endFax l .pageFailed s
  | some .sChoose, .endSession => endFax l .pageFailed s
  | some .sCheck, .endSession => endFax l .pageFailed s
  | some .sPage, .endSession => endFax l .pageFailed s
  | some .sBlock, .endSession => endFax l .pageFailed s
  | some .sAwaitVerdict, .endSession => endFax l .pageFailed s
  | _, _ => s

/-- The session is ending: its END is being sent, and no further control frame is taken (R167). -/
def faxEnding (l : LineId) (s : State) : Bool :=
  match (s.fw.get l).after with
  | .finish _ => true
  | _ => false

/-- A receive record taken by the Fax Controller (R149, R163). -/
def faxRecord (l : LineId) (r : RxRecord) (s : State) : State :=
  if (s.fx.get l).role = .receiver ∧ (s.fw.get l).step = .blockData then roundRecord l r s
  else match r.verdict, r.content with
    | .good, .control f => if (s.fw.get l).step = .slow ∧ faxEnding l s = false then takeControl l f s else s
    | _, _ => s

/-! ## Reports and timeouts (R149) -/

/-- A response timeout (R149): the last control frame again, or after three repeats END and NO-RESPONSE. -/
def responseTimeout (l : LineId) (s : State) : State :=
  let x := s.fx.get l
  if 3 ≤ x.repeats then faxSendEnd l .noResponse s
  else
    let s := s.updFx l fun x => { x with repeats := x.repeats + 1 }
    match x.lastFrame with
    | some f => faxSend l f (s.fw.get l).after s
    | none => s

/-- The side's last control frame is SENT (R149). -/
def controlSent (l : LineId) (s : State) : State :=
  match (s.fw.get l).after with
  | .wait => setResponse l true s
  | .check => startCheck l s
  | .page => startPage l s
  | .block => startRound l s
  | .finish o => endFax l o s

/-- The side's last control frame, its END too, is aborted or discarded: it is offered again, up to twice; the third time counts as a
timeout (R149). -/
def controlAborted (l : LineId) (s : State) : State :=
  let w := s.fw.get l
  if w.step ≠ .slow then s
  else if w.aborts < 2 then
    match (s.fx.get l).lastFrame with
    | some f => offerControl l f (s.updFw l fun w => { w with aborts := w.aborts + 1 })
    | none => s
  else responseTimeout l s

/-- A report on the control frame of a serial number (R149): the transmitter is disabled when it is SENT, and the side goes on from its
last control frame alone; an earlier one, overtaken while it was queued, has nothing left to say (log 58). -/
def controlReport (l : LineId) (k : Nat) (v : TxVerdict) (s : State) : State :=
  let s := if v = .sent then s.updFc l Channel.disableTx else s
  if k ≠ (s.fw.get l).serial then s else if v = .sent then controlSent l s else controlAborted l s

/-- A report on one of the session's frames (R149, R162). DESIGN CHOICE, unsafe (log 70): the round-end frame sent second ends the round
also when it is SENT-ABORTED. -/
def frameReport (l : LineId) (ref : FrameRef) (v : TxVerdict) (s : State) : State :=
  match ref with
  | .control k => controlReport l k v s
  | .roundEnd true => if (s.fw.get l).step = .blockData then sendBlockEnd l s else s
  | _ => s

/-- A report of the channel reaches the Fax Controller; a control frame refused earlier, for want of room or while a frame of a round
drained, is then offered again (R136). DRY asks nothing of it: the zeros it tells of are fill (R144). -/
def faxReport (l : LineId) (r : ChanReport) (s : State) : State :=
  if (s.fx.get l).role = .none then s
  else match r with
    | .tx ref v => offerRefused l (frameReport l ref v s)
    | .lost => if (s.fw.get l).step = .blockData ∧ (s.fx.get l).role = .receiver then blockError l .frameLost s else s
    | _ => s

/-! ## Training and carrier (R151, R152, R154, R160, R162, R163) -/

/-- A training completes at an index (R151, R152, R154, R160, R162, R163). DESIGN CHOICE, unsafe (log 76): a sender whose retrain within
a page or a round completes, at whatever index, goes on with it. -/
def faxTrained (l : LineId) (i : Fin 6) (s : State) : State :=
  let full := decide (i = faxRate l s)
  match (s.fx.get l).role, (s.fw.get l).step with
  | .receiver, .checkTraining => if full then setStep l (.checkBits 0 0) s else judgeCheck l false s
  | .receiver, .pageTraining => setWatch l true (s.updFw l fun w => { w with step := .pageData, trained := true })
  | .receiver, .blockTraining =>
    let s := setStep l .blockData (setWatch l true s)
    if (s.fw.get l).blockOpen then s else beginBlock l s
  | .sender, .checkTraining => if full then setStep l .checkZeros s else waitCheck l s
  | .sender, .pageTraining =>
    if full then setStep l .pageData s
    else match (s.fx.get l).choice with | some c => sendChoose l c (backToSlow l s) | none => s
  | .sender, .blockTraining => if full then setStep l .blockData s else sendBlockEnd l s
  | _, _ => s

/-- A training or retrain fails (R151, R152, R154, R160, R162, R163). -/
def faxTrainingFailed (l : LineId) (s : State) : State :=
  match (s.fx.get l).role, (s.fw.get l).step with
  | .receiver, .checkTraining => judgeCheck l false s
  | .receiver, .checkBits _ _ => judgeCheck l false s
  | .receiver, .pageTraining => endPageData l s
  | .receiver, .pageData => endPageData l s
  | .receiver, .blockTraining => endRound l s
  | .receiver, .blockData => endRound l s
  | .sender, .checkTraining => waitCheck l s
  | .sender, .checkZeros => waitCheck l s
  | .sender, .pageTraining => match (s.fx.get l).choice with | some c => sendChoose l c (backToSlow l s) | none => s
  | .sender, .pageData => match (s.fx.get l).choice with | some c => sendChoose l c (backToSlow l s) | none => s
  | .sender, .blockTraining => sendBlockEnd l s
  | .sender, .blockData => sendBlockEnd l s
  | _, _ => s

/-- The carrier is lost (R152, R156). -/
def faxCarrierLost (l : LineId) (s : State) : State :=
  match (s.fx.get l).role, (s.fw.get l).step with
  | .receiver, .checkBits _ _ => judgeCheck l false s
  | .receiver, .pageData => s.updFw l fun w => { w with lineSpoiled := true }
  | _, _ => s

/-- An octet of a transparent receiver (R152, R155). -/
def faxOctet (l : LineId) (b : Byte) (s : State) : State :=
  match (s.fx.get l).role, (s.fw.get l).step with
  | .receiver, .checkBits bits ones => checkOctet l b bits ones s
  | .receiver, .pageData => (octetBits b).foldl (fun t x => pageBit l x t) s
  | _, _ => s

/-! ## The transmit client (R88) -/

/-- The end of what the sender's client brings: the page, or the block in corrected mode. -/
def sendLimit (l : LineId) (s : State) : Nat :=
  match sentPage l (s.fx.get l).page s with
  | none => 0
  | some p =>
    if (s.fw.get l).step = .blockData then p.start + (s.fw.get l).blockBase + blockOctets l (s.fw.get l).blockBase s
    else p.start + p.byteLength

/-- The bytes of the store block being brought. -/
def sendBytes (l : LineId) (s : State) : Nat :=
  min (Config.blockBytes - (s.fw.get l).txNext % Config.blockBytes) (sendLimit l s - (s.fw.get l).txNext)

/-- The client has a burst pending (R87, R157). -/
def faxPending (l : LineId) (s : State) : Bool :=
  match (s.fx.get l).role with
  | .receiver => decide ((s.fw.get l).unwritten ≠ [] ∨ (s.fw.get l).frameWrites ≠ [])
  | .sender =>
    decide (((s.fw.get l).step = .pageData ∨ (s.fw.get l).step = .blockData) ∧
      Config.burstBytes * (s.fw.get l).served < sendBytes l s)
  | .none => false

/-- A burst of a fax client ends (R87, R155, R157, R163). -/
def faxBurst (l : LineId) (s : State) : State :=
  match (s.fx.get l).role, (s.fx.get l).document with
  | .receiver, some n =>
    if (s.fw.get l).unwritten ≠ [] then takeWaiting l (writeLineBurst l n s) else writeFrameBurst l n s
  | .sender, _ => if faxPending l s then s.updFw l fun w => { w with served := w.served + 1 } else s
  | _, _ => s

/-- The turn of a fax client's buffers (R88): the transmitter takes the buffer brought, its handle moving past it, or is LATE. -/
def faxTurn (l : LineId) (s : State) : State :=
  match (s.fx.get l).role, (s.fw.get l).step with
  | .receiver, _ => takeWaiting l s
  | .sender, .pageData =>
    if faxPending l s then faxNotice l .late s
    else
      let next := (s.fw.get l).txNext + sendBytes l s
      ((seekSender l next s).updFw l fun w => { w with txNext := next, served := 0 }).updFc l fun c => { c with dry := false }
  | .sender, .blockData =>
    if faxPending l s then faxNotice l .late s
    else
      let next := (s.fw.get l).txNext + sendBytes l s
      (seekSender l next s).updFw l fun w => { w with txNext := next, served := 0 }
  | _, _ => s

/-- The page octets of a frame of the block being sent (R138, R162). -/
def frameOctets (l : LineId) (k count : Nat) (s : State) : List Byte :=
  match (s.fx.get l).document, sentPage l (s.fx.get l).page s with
  | some n, some p =>
    BitVec.ofNat 8 k ::
      readContent s.store.dir[n].blocks (p.start + (s.fw.get l).blockBase + 256 * k) count s.store.dram
  | _, _ => [BitVec.ofNat 8 k]

/-- The bits of a frame record as sent (R134). A control frame's octets are a free value (log 15). -/
def wireOf (l : LineId) (r : FrameRec) (s : State) : List Bool :=
  match r.content with
  | .octets bs => frameBits r.address bs
  | .page k n => frameBits r.address (frameOctets l k n s)
  | .control f => frameBits r.address (Config.controlOctets f)

/-! ## FAX ABORT (R168) -/

/-- FAX ABORT: an owner abort, FAX-SLOW and FRAMED, END, and the outcome ABORTED. -/
def abortFax (l : LineId) (s : State) : State :=
  faxSendEnd l .aborted (backToSlow l (endTone l .cut (s.updFc l Channel.ownerAbort)))

end Sys2Proof.Machine
end

