-- ==== Sys2Proof/Machine/Operands.lean ====
section
/-! DEFINITION. The operand forms of the commands: which numbers name something, which values a setting takes, and clamping (spec
00_scope 1.6 and the owning rules). -/

namespace Sys2Proof

/-! ## Optional arguments -/

/-- The setting after an optional named value. -/
def Arg.orElse {α : Type} (a : Arg α) (old : α) : α :=
  match a with
  | .val v => v
  | _ => old

/-- An argument names a value outside its list. -/
def Arg.isBad {α : Type} : Arg α → Bool
  | .bad => true
  | _ => false

/-- An argument is not named. -/
def Arg.isAbsent {α : Type} : Arg α → Bool
  | .absent => true
  | _ => false

end Sys2Proof

namespace Sys2Proof.Machine

/-! ## Numbers that name something -/

/-- A line number: 0 or 1 (R3). -/
def lineOfNat : Nat → Option LineId
  | 0 => some .line0
  | 1 => some .line1
  | _ => none

/-- A number below `n` as an index. -/
def finOfNat (n k : Nat) : Option (Fin n) := if h : k < n then some ⟨k, h⟩ else none

/-! ## Optional arguments -/

/-- The setting after an optional number, clamped. -/
def orClamp (old : Nat) (lo hi : Nat) : Option Nat → Nat
  | none => old
  | some v => clampNat lo hi v

/-- A rate index clamped to 0..5. -/
def clampRate (v : Nat) : Fin 6 := if h : v < 6 then ⟨v, h⟩ else 5

/-- The rate index after an optional number. -/
def orRate (old : Fin 6) : Option Nat → Fin 6
  | none => old
  | some v => clampRate v

/-- A printable character: ASCII 0x20 to 0x7E (PRESUMED, log 16). -/
def printable (b : Byte) : Bool := decide (0x20 ≤ b.toNat ∧ b.toNat ≤ 0x7E)

/-- A station identity: 1 to 20 printable characters (Table 8-2, R191). -/
def stationOk (s : List Byte) : Bool := decide (1 ≤ s.length ∧ s.length ≤ 20) && s.all printable

/-! ## Line policy (R25) -/

/-- A setting is named with a value outside its list of values. -/
def policyBad (a : PolicyArgs) : Bool :=
  a.answerMode.isBad || a.tollSaver.isBad || a.outgoing.isBad || a.callerId.isBad || a.setClock.isBad || a.noteAll.isBad ||
    a.extYield.isBad

/-- The policy with the named settings changed. -/
def applyPolicy (a : PolicyArgs) (p : LinePolicy) : LinePolicy :=
  { answerMode := a.answerMode.orElse p.answerMode, ringCount := orClamp p.ringCount 1 9 a.ringCount,
    tollSaver := a.tollSaver.orElse p.tollSaver, outgoing := a.outgoing.orElse p.outgoing,
    callerId := a.callerId.orElse p.callerId,
    typeValue := BitVec.ofNat 8 (orClamp p.typeValue.toNat 0 255 a.typeValue),
    typeMask := BitVec.ofNat 8 (orClamp p.typeMask.toNat 0 255 a.typeMask), setClock := a.setClock.orElse p.setClock,
    noteAll := a.noteAll.orElse p.noteAll, extYield := a.extYield.orElse p.extYield }

/-! ## Cadence table (R35) -/

/-- A cadence entry of SET CADENCE, clamped; none if its number, class or limits are refused. -/
def cadenceOf (a : CadenceArg) : Option (Fin 8 × CadenceEntry) :=
  match finOfNat 8 a.entry, a.cls with
  | some n, some cls =>
    let e : CadenceEntry :=
      { cls := cls, onMin := clampNat 20 10000 a.onMin, onMax := clampNat 20 10000 a.onMax,
        offMin := clampNat 0 10000 a.offMin, offMax := clampNat 0 10000 a.offMax, repeatCount := clampNat 0 15 a.repeatCount }
    if e.onMax < e.onMin ∨ (e.offMax ≠ 0 ∧ e.offMax < e.offMin) then none else some (n, e)
  | _, _ => none

/-- Every entry of a SET CADENCE, or none if one is refused. -/
def cadencesOf : List CadenceArg → Option (List (Fin 8 × CadenceEntry))
  | [] => some []
  | a :: as =>
    match cadenceOf a, cadencesOf as with
    | some e, some es => some (e :: es)
    | _, _ => none

/-! ## Dial strings (R46) -/

/-- The symbols of a string, or none if one is not in Table 3-2. -/
def symbolsOf : List (Option DialSym) → Option (List DialSym)
  | [] => some []
  | some x :: xs => (symbolsOf xs).map (x :: ·)
  | none :: _ => none

/-- A dial string of 1 to 40 symbols of Table 3-2 (R46). -/
def dialString (s : List (Option DialSym)) : Option (List DialSym) :=
  if 1 ≤ s.length ∧ s.length ≤ 40 then symbolsOf s else none

/-! ## Clock (R89) -/

/-- The length of a month. -/
def monthLength (m : Nat) : Nat :=
  if m = 2 then 29 else if m = 4 ∨ m = 6 ∨ m = 9 ∨ m = 11 then 30 else 31

/-- Five fields clamped to their ranges, and the day then to the length of the month. -/
def clockOf (a : ClockArgs) : ClockTime :=
  let m := clampNat 1 12 a.month
  { month := m, day := clampNat 1 (monthLength m) (clampNat 1 31 a.day), hour := clampNat 0 23 a.hour,
    minute := clampNat 0 59 a.minute, second := clampNat 0 59 a.second }

/-! ## Voice settings (R94, R113) -/

/-- A maximum length: 0 stays 0, 1 to 9 becomes 10, above 600 becomes 600 (R113). -/
def clampMaxLength (v : Nat) : Nat := if v = 0 then 0 else clampNat 10 600 v

/-- A SET VOICE is refused with BAD-ARGUMENT for its settings (R94, R113). -/
def voiceBad (c : CtxId) (a : VoiceArgs) : Bool :=
  a.rate.isBad || a.code.isBad || a.dither.isBad || a.continueLate.isBad || a.screening.isBad ||
    (c == .loc && !a.screening.isAbsent)

/-- The settings of a context with the named ones changed. -/
def applyVoice (a : VoiceArgs) (v : VoiceSettings) : VoiceSettings :=
  { recGain := orClamp v.recGain 0 31 a.recGain, playGain := orClamp v.playGain 0 31 a.playGain,
    rate := a.rate.orElse v.rate, code := a.code.orElse v.code, dither := a.dither.orElse v.dither,
    threshold := orClamp v.threshold 0 2047 a.threshold, continueLate := a.continueLate.orElse v.continueLate,
    silenceTime := orClamp v.silenceTime 1000 15000 a.silenceTime,
    maxLength := (match a.maxLength with | none => v.maxLength | some m => clampMaxLength m),
    screening := a.screening.orElse v.screening }

/-! ## Fax settings (R147) -/

/-- A minimum line time of Table 8-2. -/
def lineTimeOk (t : Nat) : Bool := t == 0 || t == 5 || t == 10 || t == 20 || t == 40

/-- A SET FAX is refused with BAD-ARGUMENT for its settings (R147). -/
def faxBad (a : FaxArgs) : Bool :=
  a.fine.isBad || a.corrected.isBad || a.station.isBad ||
    (match a.minLineTime with | none => false | some t => !lineTimeOk t) ||
    (match a.station with | .val (some s) => !stationOk s | _ => false)

/-- The fax settings with the named ones changed. -/
def applyFax (a : FaxArgs) (v : FaxSettings) : FaxSettings :=
  { maxRate := orRate v.maxRate a.maxRate, fine := a.fine.orElse v.fine, corrected := a.corrected.orElse v.corrected,
    minLineTime := a.minLineTime.getD v.minLineTime, tolerance := orClamp v.tolerance 1 20 a.tolerance,
    runLimit := orClamp v.runLimit 1 64 a.runLimit, progress := orClamp v.progress 0 1023 a.progress,
    station := a.station.orElse v.station, lossTime := orClamp v.lossTime 500 5000 a.lossTime }

/-! ## Link settings (R172) -/

/-- The link settings with the named ones changed. -/
def applyLink (a : LinkArgs) (v : LinkSettings) : LinkSettings :=
  { window := orClamp v.window 1 15 a.window, payload := orClamp v.payload 16 256 a.payload,
    ceiling := orRate v.ceiling a.ceiling, plainFallback := a.plainFallback.orElse v.plainFallback,
    retryLimit := orClamp v.retryLimit 1 15 a.retryLimit, replyTimer := orClamp v.replyTimer 200 5000 a.replyTimer,
    stepDown := orClamp v.stepDown 1 32 a.stepDown, lossTime := orClamp v.lossTime 500 5000 a.lossTime }

end Sys2Proof.Machine
end

