-- ==== Sys2Proof/Machine/LinkOps.lean ====
section
/-! DEFINITION. The Checked Link's operations (spec 09): frames, setup, the sender, the receiver, the rate, and the end of a link. -/

namespace Sys2Proof.Machine

/-! ## Frames (Table 9-3) -/

/-- A frame of the link, as its content spells it (Table 9-3). -/
inductive LinkFrame where
  | callUp (window payload : Nat) (ceiling : Fin 6)
  | callUpAck (window payload : Nat) (ceiling : Fin 6)
  | data (n : Nat) (poll : Bool) (a : Nat) (payload : List Byte)
  | ack (a : Nat) (final : Bool)
  | hold (a : Nat)
  | ready (a : Nat)
  | resend (a : Nat) (ns : List Nat)
  | rate (i : Fin 6)
  | rateOk (i : Fin 6)
  | close
  | closeAck
deriving DecidableEq, Repr

/-- The content octets of a frame (Table 9-3). -/
def LinkFrame.octets : LinkFrame → List Byte
  | .callUp w p c => [0x01, BitVec.ofNat 8 w, BitVec.ofNat 8 p, BitVec.ofNat 8 (p / 256), BitVec.ofNat 8 c.val]
  | .callUpAck w p c => [0x02, BitVec.ofNat 8 w, BitVec.ofNat 8 p, BitVec.ofNat 8 (p / 256), BitVec.ofNat 8 c.val]
  | .data n poll a bs => 0x10 :: BitVec.ofNat 8 (n + if poll then 128 else 0) :: BitVec.ofNat 8 a :: bs
  | .ack a fin => [0x11, BitVec.ofNat 8 (a + if fin then 128 else 0)]
  | .hold a => [0x12, BitVec.ofNat 8 a]
  | .ready a => [0x13, BitVec.ofNat 8 a]
  | .resend a ns => 0x14 :: BitVec.ofNat 8 a :: ns.map (BitVec.ofNat 8)
  | .rate i => [0x20, BitVec.ofNat 8 i.val]
  | .rateOk i => [0x21, BitVec.ofNat 8 i.val]
  | .close => [0x30]
  | .closeAck => [0x31]

/-- A rate index from an octet. -/
def rateOctet (b : Byte) : Option (Fin 6) := if h : b.toNat < 6 then some ⟨b.toNat, h⟩ else none

/-- The values of a CALL-UP or CALL-UP-ACK, each within its range (Table 9-3). -/
def readSetup (w lo hi c : Byte) : Option (Nat × Nat × Fin 6) :=
  let p := lo.toNat + 256 * hi.toNat
  match rateOctet c with
  | some i => if 1 ≤ w.toNat ∧ w.toNat ≤ 15 ∧ 16 ≤ p ∧ p ≤ 256 then some (w.toNat, p, i) else none
  | none => none

/-- Read a content as a frame of the link; none where it does not have the form of Table 9-3 (R173). DESIGN CHOICE, unsafe (log 78): the
order of the send numbers of a RESEND is no part of its form here. -/
def readLink (maxPayload : Nat) : List Byte → Option LinkFrame
  | [] => none
  | k :: rest =>
    if k = 0x01 then
      (match rest with | [w, lo, hi, c] => (readSetup w lo hi c).map fun x => .callUp x.1 x.2.1 x.2.2 | _ => none)
    else if k = 0x02 then
      (match rest with | [w, lo, hi, c] => (readSetup w lo hi c).map fun x => .callUpAck x.1 x.2.1 x.2.2 | _ => none)
    else if k = 0x10 then
      (match rest with
       | n :: a :: p :: ps =>
         if n.toNat % 128 < 32 ∧ a.toNat < 32 ∧ ps.length + 1 ≤ maxPayload then
           some (.data (n.toNat % 128) (decide (128 ≤ n.toNat)) a.toNat (p :: ps)) else none
       | _ => none)
    else if k = 0x11 then
      (match rest with | [a] => if a.toNat % 128 < 32 then some (.ack (a.toNat % 128) (decide (128 ≤ a.toNat))) else none | _ => none)
    else if k = 0x12 then (match rest with | [a] => if a.toNat < 32 then some (.hold a.toNat) else none | _ => none)
    else if k = 0x13 then (match rest with | [a] => if a.toNat < 32 then some (.ready a.toNat) else none | _ => none)
    else if k = 0x14 then
      (match rest with
       | a :: ns => if a.toNat < 32 ∧ 1 ≤ ns.length ∧ ns.length ≤ 4 ∧ ns.all (fun n => decide (n.toNat < 32)) then
           some (.resend a.toNat (ns.map (·.toNat))) else none
       | _ => none)
    else if k = 0x20 then (match rest with | [i] => (rateOctet i).map .rate | _ => none)
    else if k = 0x21 then (match rest with | [i] => (rateOctet i).map .rateOk | _ => none)
    else if k = 0x30 then (if rest = [] then some .close else none)
    else if k = 0x31 then (if rest = [] then some .closeAck else none)
    else none

/-! ## States and notices -/

/-- Change the link state: STATE is raised (R174, R175, R182, R184). -/
def setLinkState (st : LinkState) (s : State) : State :=
  if s.cl.state = st then s else linkNotice .state (s.updCl fun c => { c with state := st })

/-- OPEN or HELD-BY-PEER. -/
def LinkState.isOpen : LinkState → Bool
  | .opened => true
  | .heldByPeer => true
  | _ => false

/-- OPEN, HELD-BY-PEER or CLOSING: the states in which the history is kept and DATA is taken (R178, R181, R183). -/
def LinkState.takesData : LinkState → Bool
  | .opened => true
  | .heldByPeer => true
  | .closing => true
  | _ => false

/-- The states in which frames are offered (R184). -/
def LinkState.offers : LinkState → Bool
  | .setup => true
  | .opened => true
  | .heldByPeer => true
  | .closing => true
  | _ => false

/-- The address of the far end (9.2). -/
def farAddress (r : LinkRole) : Byte := match r with | .caller => 0x03 | .answerer => 0x01

/-- The 2408's own address (9.2). -/
def nearAddress (r : LinkRole) : Byte := match r with | .caller => 0x01 | .answerer => 0x03

/-- A frame record of the link. -/
def linkRec (f : LinkFrame) (ref : FrameRef) (s : State) : FrameRec := ⟨farAddress s.cl.role, .octets f.octets, ref⟩

/-! ## Offering frames (R173) -/

/-- The next frame waiting in the link: control frames, then DATA sent again, then new DATA. -/
def LinkWork.next (w : LinkWork) : Option (FrameRec × LinkWork) :=
  match w.control, w.again, w.fresh with
  | r :: rs, _, _ => some (r, { w with control := rs })
  | [], r :: rs, _ => some (r, { w with again := rs })
  | [], [], r :: rs => some (r, { w with fresh := rs })
  | [], [], [] => none

/-- Offer waiting frames while the transmit queue has room. -/
def offerWaiting : Nat → State → State
  | 0, s => s
  | k + 1, s =>
    match s.cl.line, s.cw.next with
    | some l, some (r, w) =>
      if s.cl.state.offers ∧ (s.fc.get l).takes r then
        offerWaiting k (({ s with cw := w }).updFc l (Channel.offer r)) else s
    | _, _ => s

/-- Send a control frame of the link. -/
def linkSend (f : LinkFrame) (ref : FrameRef) (s : State) : State :=
  offerWaiting 4 (s.updCw fun w => { w with control := w.control ++ [linkRec f ref s] })

/-- A frame is waiting in the link or in the transmit queue. -/
def frameQueued (n : Nat) (s : State) : Bool :=
  s.cw.again.any (fun r => r.ref == .linkData n) || s.cw.fresh.any (fun r => r.ref == .linkData n) ||
    (match s.cl.line with
     | some l => (s.fc.get l).txQueue.any fun r => r.ref == .linkData n
     | none => false)

/-- Send an outstanding frame again (R179, R180). -/
def sendAgain (poll : Bool) (d : DataFrame) (s : State) : State :=
  let r := linkRec (.data d.n poll s.cl.v d.payload) (.linkData d.n) s
  offerWaiting 4 ((s.updCw fun w => { w with again := w.again ++ [r] }).updCl fun c => { c with sentAgain := c.sentAgain + 1 })

/-- Send again, with poll clear, an outstanding frame that is not already queued (R180, R184). -/
def sendAgainOnce (d : DataFrame) (s : State) : State := if frameQueued d.n s then s else sendAgain false d s

/-! ## The CP streams (R176, R177, R181, R182, R195) -/

/-- The free space of the CP outbound stream's buffer (R195). -/
def outSpace (s : State) : Nat := 512 - (s.st.get .cp).outb.buffer.length

/-- Remove the `k` oldest bytes of a list of chunk slots: the bytes, the slots that remain, and how many were freed. -/
def takeBytes : Nat → List (List Byte) → List Byte × List (List Byte) × Nat
  | _, [] => ([], [], 0)
  | k, c :: cs =>
    if k = 0 then ([], c :: cs, 0)
    else if c.length ≤ k then
      let r := takeBytes (k - c.length) cs
      (c ++ r.1, r.2.1, r.2.2 + 1)
    else (c.take k, c.drop k :: cs, 0)

/-- The bytes waiting in the CP inbound stream's buffer, while it serves the link. -/
def inWaiting (s : State) : Nat :=
  let i := (s.st.get .cp).inb
  if i.binding = some .link ∧ i.state = .active then (i.slots.map List.length).sum else 0

/-- Remove bytes from the CP inbound stream: the slots emptied are granted again (R192, R195). -/
def takeInbound (k : Nat) (s : State) : List Byte × State :=
  let r := takeBytes k (s.st.get .cp).inb.slots
  (r.1, grant .cp r.2.2 (s.updIn .cp fun i => { i with slots := r.2.1, credit := i.credit + r.2.2 }))

/-- The link's streams carry bytes: the CP is READY and has not left since the link began (R186, R195). -/
def linkCarries (s : State) : Bool := isReady s .cp && !s.cw.departed

/-- Deliver a payload to the CP outbound stream; nothing reaches a departed master (R181, R186). -/
def deliver (bs : List Byte) (s : State) : State :=
  let s := if linkCarries s then s.updOut .cp fun o => { o with buffer := o.buffer ++ bs } else s
  s.updCl fun c => { c with octetsDelivered := c.octetsDelivered + BitVec.ofNat 32 bs.length }

/-- HOLD and READY by the free space (R182), judged while the link exists; in RETRAINING the frame waits to be offered (R184). -/
def judgeSpace (s : State) : State :=
  if s.cl.state = .ended then s
  else if s.cl.ownBusy = false ∧ outSpace s < s.cl.payload then
    linkSend (.hold s.cl.v) .linkControl (s.updCl fun c => { c with ownBusy := true })
  else if s.cl.ownBusy = true ∧ 256 ≤ outSpace s then
    linkSend (.ready s.cl.v) .linkControl (s.updCl fun c => { c with ownBusy := false })
  else s

/-! ## The reply timer (R179) -/

/-- A running timer is suspended; a stopped one stays so (R179, R184). -/
def ReplyTimer.suspend : ReplyTimer → ReplyTimer
  | .running => .suspended
  | t => t

/-- A suspended timer runs on (R184). -/
def ReplyTimer.resume : ReplyTimer → ReplyTimer
  | .suspended => .running
  | t => t

/-- The carrier of the link's line is ABSENT (R179). -/
def linkSilent (s : State) : Bool :=
  match s.cl.line with
  | some l => !(s.su.get l).carrier
  | none => false

/-- What a reply timer started now is: suspended in RETRAINING and while the carrier is ABSENT (R179). -/
def startedTimer (s : State) : ReplyTimer := if s.cl.state = .retraining ∨ linkSilent s then .suspended else .running

/-- Start the timer afresh if frames are outstanding, else stop it. -/
def restartTimer (s : State) : State :=
  s.updCl fun c => { c with timer := if c.outstanding = [] then .stopped else startedTimer s }

/-- At carrier lost the reply timer and the proposal timer are suspended (R184). -/
def suspendTimers (s : State) : State :=
  s.updCl fun c => { c with timer := c.timer.suspend, proposal := c.proposal.map fun p => (p.1, p.2.suspend) }

/-- The training that follows a carrier loss is complete: suspended timers run on (R184). -/
def resumeTimers (s : State) : State :=
  s.updCl fun c => { c with timer := c.timer.resume, proposal := c.proposal.map fun p => (p.1, p.2.resume) }

/-! ## Building frames (R177) and acknowledging (R181) -/

/-- A new DATA frame can be built now (R177). -/
def canBuild (s : State) : Bool :=
  s.cl.state == .opened && decide (s.cl.outstanding.length < s.cl.window) && !s.cl.peerBusy && s.cl.proposal.isNone &&
    s.cw.next.isNone && decide (0 < inWaiting s) &&
    (match s.cl.line with
     | some l => decide ((s.fc.get l).txQueue.length < 4)
     | none => false)

/-- Build a new DATA frame from the waiting bytes (R177). -/
def buildFrame (s : State) : State :=
  let r := takeInbound s.cl.payload s
  let d : DataFrame := ⟨s.cl.s, r.1⟩
  let t := r.2.updCl fun c =>
    { c with s := (c.s + 1) % 32, outstanding := c.outstanding ++ [d], built := c.built + 1,
             octetsSent := c.octetsSent + BitVec.ofNat 32 r.1.length, ackDue := false }
  offerWaiting 4 (t.updCw fun w => { w with fresh := w.fresh ++ [linkRec (.data d.n false s.cl.v d.payload) (.linkData d.n) s] })

/-- Build frames while the rule allows. -/
def buildFrames : Nat → State → State
  | 0, s => s
  | k + 1, s => if canBuild s then buildFrames k (buildFrame s) else s

/-- What the link does whenever it can: offer what waits, build new frames, and acknowledge what is due (R173, R177, R181). -/
def linkWork (s : State) : State :=
  let s := buildFrames 8 (offerWaiting 4 s)
  if s.cl.ackDue ∧ s.cl.state.takesData then
    linkSend (.ack s.cl.v false) .linkControl (s.updCl fun c => { c with ackDue := false })
  else s

/-- The acknowledgement a record carries (R178). -/
def takeAck (a : Nat) (s : State) : State :=
  match s.cl.outstanding with
  | [] => s
  | o :: _ =>
    let d := (a + 32 - o.n % 32) % 32
    if 1 ≤ d ∧ d ≤ s.cl.outstanding.length then
      restartTimer (s.updCl fun c => { c with outstanding := c.outstanding.drop d, retries := 0 })
    else s

/-! ## The end of a link (R186) -/

/-- The streams are handed LINK-ENDED (R186, R195): the inbound halts at once, the outbound when its buffer is empty; with the CP
not READY, or gone since the link began, both return to UNBOUND. -/
def haltLinkStreams (departed : Bool) (s : State) : State :=
  if isReady s .cp ∧ departed = false then
    let s := if (s.st.get .cp).inb.binding = some .link ∧ (s.st.get .cp).inb.state = .active then haltIn .cp .linkEnded s else s
    let o := (s.st.get .cp).outb
    if o.binding ≠ some .link ∨ o.state ≠ .active then s
    else if o.buffer = [] then haltOut .cp .linkEnded s
    else s.updOut .cp fun o => { o with haltPending := true }
  else
    let s := if (s.st.get .cp).inb.binding = some .link then changeIn .cp (fun _ => .unbound) s else s
    if (s.st.get .cp).outb.binding = some .link then changeOut .cp (fun _ => .unbound) s else s

/-- The link ends with an outcome (R171, R186), steps 1 to 6; the line is cleared by the caller where it is still up. DESIGN CHOICE,
unsafe (log 77): of the fields R171 neither keeps nor empties, the link ceiling is kept and the others take their reset values. -/
def finishLink (o : LinkOutcome) (s : State) : State :=
  match s.cl.line with
  | none => s
  | some l =>
    let w := s.cw
    let s := s.updFc l Channel.unbind
    let s := s.updCl fun c =>
      { LinkRec.initial with role := c.role, line := c.line, window := c.window, payload := c.payload, ceiling := c.ceiling,
                             rate := c.rate, quality := c.quality, built := c.built, sentAgain := c.sentAgain,
                             octetsSent := c.octetsSent, octetsDelivered := c.octetsDelivered, dropped := c.dropped,
                             outcome := some o }
    let s := s.updCw fun _ => .initial
    let s := linkNotice .ended (haltLinkStreams w.departed s)
    if w.reached then s else linkToQueue l o s

/-- The link ends on its own: the line is cleared (R186 step 7). -/
def endLink (o : LinkOutcome) (s : State) : State :=
  match s.cl.line with
  | none => s
  | some l => blockClear l (finishLink o s)

/-- The line of the link has cleared (R186): NO-CARRIER for a loop break, ABORTED otherwise. -/
def linkCleared (l : LineId) (loopBreak : Bool) (s : State) : State :=
  if s.cl.state ≠ .ended ∧ s.cl.line = some l then finishLink (if loopBreak then .noCarrier else .aborted) s else s

/-! ## Starting and setup (R174 to R176) -/

/-- The refusal of a data call at its hand-on is the link's last outcome, DATA-REFUSED, while no link exists (R12, R174, R186, log 60). -/
def refuseLink (s : State) : State :=
  if s.cl.state = .ended then s.updCl fun c => { c with outcome := some .dataRefused } else s

/-- Start a link on a line in DATA (R174); none if the computer cannot take it. -/
def startLink (l : LineId) (role : LinkRole) (s : State) : Option State :=
  if canTakeData s ∧ (s.fc.get l).owner = .none then
    let t := s.clSet
    let s := s.updCl fun c => { LinkRec.initial with state := .setup, role := role, line := some l, rate := c.rate, quality := c.quality }
    let s := s.updCw fun _ => { LinkWork.initial with ownCeiling := t.ceiling, lossTime := t.lossTime }
    let s := changeIn .cp (fun _ => { InStream.unbound with state := .active, binding := some .link, credit := 8 }) s
    let s := changeOut .cp (fun _ => { OutStream.unbound with state := .active, binding := some .link }) s
    let s := grant .cp 8 s
    let s := s.updFc l (Channel.bind .cl (nearAddress role) .exact 300 .flags)
    some (linkNotice .state (requestMode l .data t.ceiling 5 (some t.lossTime) s))
  else none

/-- The link first reaches OPEN or PLAIN (R186). -/
def linkReach (s : State) : State :=
  if s.cw.reached then s
  else
    let s := s.updCw fun w => { w with reached := true }
    match s.cl.line with
    | some l => linkReached l s
    | none => s

/-- Enter PLAIN (R176). -/
def enterPlain (s : State) : State :=
  match s.cl.line with
  | none => s
  | some l =>
    let s := s.updFc l fun c => c.disableTx.disableRx
    let s := s.updSu l fun u => { u with plain := true }
    linkReach (setLinkState .plain (s.updCw fun w => { w with setup := .stopped, control := [] }))

/-- The setup ends unanswered (R175). -/
def setupUnanswered (s : State) : State := if s.clSet.plainFallback then enterPlain s else endLink .noPeer s

/-- The window and payload this side proposes: those of its first frame of the setup, else the settings, read at setup (Table 9-2,
R175). -/
def proposal (s : State) : Nat × Nat := s.cw.proposed.getD (s.clSet.window, s.clSet.payload)

/-- Send CALL-UP and start the interval (R174, R175): a repeat carries what the first carried. -/
def sendCallUp (s : State) : State :=
  linkSend (.callUp (proposal s).1 (proposal s).2 s.cw.ownCeiling) .linkControl
    (s.updCw fun w => { w with setup := .interval, callUps := w.callUps + 1, proposed := some (proposal s) })

/-- The link enters RETRAINING with the present state as return state (R184): the reply timer is suspended. -/
def enterRetraining (s : State) : State :=
  if s.cl.state.isOpen ∨ s.cl.state = .setup then
    setLinkState .retraining (s.updCl fun c => { c with returnState := some c.state, timer := c.timer.suspend })
  else s

/-- The link asks for a retrain at an agreed index: the proposal is cleared (R184). -/
def linkRetrain (i : Fin 6) (s : State) : State :=
  match s.cl.line with
  | none => s
  | some l => retrain l (some i) ((enterRetraining s).updCl fun c => { c with proposal := none })

/-- The agreed values (R175). -/
def agree (w p : Nat) (c : Fin 6) (s : State) : State :=
  s.updCl fun k => { k with window := min (proposal s).1 w, payload := min (proposal s).2 p,
                            ceiling := if s.cw.ownCeiling ≤ c then s.cw.ownCeiling else c }

/-- The link enters OPEN, and retrains where the trained index lies above the link ceiling (R175). DESIGN CHOICE, unsafe (log 80): the
STATE notice of R175 is raised here at both ends. -/
def enterOpen (s : State) : State :=
  let s := linkReach (setLinkState .opened (s.updCw fun w => { w with setup := .stopped }))
  if s.cl.ceiling < s.cl.rate then linkRetrain s.cl.ceiling s else s

/-! ## Closing (R185) -/

/-- The bytes waiting in the inbound stream's buffer are abandoned (R185). -/
def dropInbound (s : State) : State :=
  let k := (s.st.get .cp).inb.slots.length
  if (s.st.get .cp).inb.binding = some .link then
    grant .cp k (s.updIn .cp fun i => { i with slots := [], credit := i.credit + k })
  else s

/-- The 2408 closes the link (R185). -/
def closeLink (s : State) : State :=
  match s.cl.state with
  | .ended => s
  | .closing => s
  | .setup => endLink .closed s
  | .plain => endLink .closed s
  | _ =>
    let s := dropInbound (s.updCl fun c =>
      { c with outstanding := [], ahead := [], timer := .stopped, proposal := none, closeCount := 1, returnState := none })
    let s := setLinkState .closing (s.updCw fun w => { w with again := [], fresh := [] })
    linkSend .close .linkClose s

/-! ## Quality (R183) -/

/-- The BAD entries of the history. -/
def LinkRec.bads (c : LinkRec) : Nat := c.history.countP (fun g => !g)

/-- Propose a rate index (R183). -/
def proposeRate (i : Fin 6) (s : State) : State :=
  linkSend (.rate i) (.linkRate none) (s.updCl fun c => { c with proposal := some (i, .stopped) })

/-- A rate index one lower or one higher. -/
def shiftRate (i : Fin 6) (up : Bool) : Fin 6 := clampRate (if up then i.val + 1 else i.val - 1)

/-- Judge the history (R183). -/
def judgeHistory (s : State) : State :=
  let c := s.cl
  if !c.state.isOpen || c.proposal.isSome then s
  else if s.clSet.stepDown ≤ c.bads ∧ 0 < c.rate.val then proposeRate (shiftRate c.rate false) s
  else if 256 ≤ c.goodRun ∧ c.rate < c.ceiling ∧ need (shiftRate c.rate true) + 4 ≤ c.quality.val then
    proposeRate (shiftRate c.rate true) s
  else s

/-- A verdict enters the history (R183). -/
def enterHistory (good : Bool) (s : State) : State :=
  if s.cl.state.takesData then
    judgeHistory (s.updCl fun c =>
      { c with history := (good :: c.history).take 32, goodRun := if good then min 65535 (c.goodRun + 1) else 0 })
  else s

/-! ## DATA (R181) -/

/-- Deliver the frame expected: v moves on, an acknowledgement is due, and the free space is judged (R181, R182). -/
def deliverNext (payload : List Byte) (s : State) : State :=
  judgeSpace ((deliver payload s).updCl fun c => { c with v := (c.v + 1) % 32, ackDue := true })

/-- Deliver held frames while the next expected is held and has room (R181). -/
def deliverHeld : Nat → State → State
  | 0, s => s
  | k + 1, s =>
    match s.cl.ahead.find? fun d => d.n == s.cl.v with
    | none => s
    | some d =>
      if d.payload.length ≤ outSpace s then
        deliverHeld k (deliverNext d.payload (s.updCl fun c => { c with ahead := c.ahead.filter fun x => x.n != d.n }))
      else s

/-- The distance of a send number ahead of v, modulo 32. -/
def aheadBy (n v : Nat) : Nat := (n + 32 - v % 32) % 32

/-- The first four send numbers missing between v and the highest held frame (R181). -/
def missingNumbers (s : State) : List Nat :=
  let far := (s.cl.ahead.map fun d => aheadBy d.n s.cl.v).foldl max 0
  (((List.range far).map fun e => (s.cl.v + e) % 32).filter fun n => !(s.cl.ahead.any fun d => d.n == n)).take 4

/-- Send RESEND for what is missing (R181). -/
def sendResend (s : State) : State :=
  match missingNumbers s with
  | [] => s
  | ns => linkSend (.resend s.cl.v ns) .linkControl s

/-- The answer to a poll (R181); an acknowledgement that is due stays due, and goes with final clear. -/
def answerPoll (s : State) : State :=
  let s := linkSend (if s.cl.ownBusy then .hold s.cl.v else .ack s.cl.v true) .linkControl s
  if s.cl.ahead = [] then s else sendResend s

/-- A DATA frame is taken (R181). -/
def takeData (n : Nat) (poll : Bool) (payload : List Byte) (s : State) : State :=
  let e := aheadBy n s.cl.v
  let s :=
    if e = 0 then
      (if payload.length ≤ outSpace s then deliverHeld 16 (deliverNext payload s) else s)
    else if e < s.cl.window then
      (if s.cl.ahead.any fun d => d.n == n then s
       else sendResend (s.updCl fun c => { c with ahead := c.ahead ++ [⟨n, payload⟩] }))
    else linkSend (.ack s.cl.v false) .linkControl s
  if poll then answerPoll s else s

/-! ## Taking a frame (R175, R178 to R185) -/

/-- CALL-UP (R175): the values are agreed at the first, and the same answer is given to a repeat. STATE is raised on entering OPEN
(log 80). -/
def takeCallUp (w p : Nat) (c : Fin 6) (s : State) : State :=
  match s.cw.ack with
  | some a =>
    offerWaiting 4 (s.updCw fun k => { k with control := k.control ++ [⟨farAddress s.cl.role, .octets a, .linkSetupAck⟩] })
  | none =>
    let f : LinkFrame := .callUpAck (proposal s).1 (proposal s).2 s.cw.ownCeiling
    linkSend f .linkSetupAck
      ((agree w p c s).updCw fun k => { k with ack := some f.octets, setup := .stopped, proposed := some (proposal s) })

/-- RATE (R184). -/
def takeRate (i : Fin 6) (s : State) : State :=
  if s.cl.ceiling < i then s
  else match s.cl.proposal with
    | none => linkSend (.rateOk i) (.linkRate (some i)) s
    | some (own, _) =>
      if i ≤ own then linkSend (.rateOk i) (.linkRate (some i)) (s.updCl fun c => { c with proposal := none }) else s

/-- READY in HELD-BY-PEER (R182): every frame still outstanding is sent again. -/
def takeReady (s : State) : State :=
  if s.cl.state = .heldByPeer then
    let s := setLinkState .opened (s.updCl fun c => { c with peerBusy := false })
    restartTimer (forEach (sendAgain false) s.cl.outstanding s)
  else s

/-- HOLD (R182). -/
def takeHold (s : State) : State :=
  if s.cl.state = .opened then setLinkState .heldByPeer (s.updCl fun c => { c with peerBusy := true })
  else if s.cl.state = .heldByPeer then restartTimer (s.updCl fun c => { c with retries := 0 })
  else s

/-- RESEND (R180). -/
def takeResend (ns : List Nat) (s : State) : State :=
  restartTimer (forEach sendAgainOnce (s.cl.outstanding.filter fun d => ns.contains d.n) s)

/-- A frame of the link, by the state (R173, R175, R178 to R185). -/
def takeFrameOf (f : LinkFrame) (s : State) : State :=
  let st := s.cl.state
  match f with
  | .callUp w p c =>
    if s.cl.role = .answerer ∧ (st = .setup ∨ st.isOpen ∨ st = .retraining) then takeCallUp w p c s else s
  | .callUpAck w p c => if s.cl.role = .caller ∧ st = .setup then enterOpen (agree w p c s) else s
  | .data n poll a bs => if st.takesData then takeData n poll bs (takeAck a s) else s
  | .ack a fin =>
    if st.takesData then (let t := takeAck a s; if fin then (if t.cl.outstanding = [] then t else restartTimer t) else t) else s
  | .hold a => if st.takesData then takeHold (takeAck a s) else s
  | .ready a => if st.takesData then takeReady (takeAck a s) else s
  | .resend a ns => if st.takesData then (if st.isOpen then takeResend ns (takeAck a s) else takeAck a s) else s
  | .rate i => if st.isOpen then takeRate i s else s
  | .rateOk i =>
    if st.isOpen then (match s.cl.proposal with | some (j, _) => if i = j then linkRetrain i s else s | none => s) else s
  | .close =>
    if st = .ended ∨ st = .plain then s
    else linkSend .closeAck .linkCloseAck s
  | .closeAck => if st = .closing then endLink .closed s else s

/-- A record taken by the link (R173, R183). -/
def linkRecord (r : RxRecord) (s : State) : State :=
  let s := enterHistory (r.verdict == .good) s
  match r.verdict, r.content with
  | .good, .octets bs =>
    (match readLink (if s.cl.state.takesData then s.cl.payload else 256) bs with
     | some f => linkWork (takeFrameOf f s)
     | none => linkWork s)
  | _, _ => linkWork s

/-- The link can act on a record (R173): all but an in-order DATA record with no room for its payload. -/
def linkCanTake (r : RxRecord) (s : State) : Bool :=
  match r.verdict, r.content with
  | .good, .octets bs =>
    (match readLink s.cl.payload bs with
     | some (.data n _ _ p) => !(s.cl.state.isOpen && n == s.cl.v && decide (outSpace s < p.length))
     | _ => true)
  | _, _ => true

/-! ## Reports (R175, R179, R180, R183 to R185) -/

/-- A frame of the link that was not sent is offered again, where the link still holds what it says (R180, log 35). -/
def reoffer (ref : FrameRef) (s : State) : State :=
  match ref with
  | .linkData n =>
    (match s.cl.outstanding.find? fun d => d.n == n with
     | some d => if s.cl.state.isOpen then sendAgainOnce d s else s
     | none => s)
  | .linkSetupAck =>
    (match s.cw.ack with
     | some a => offerWaiting 4 (s.updCw fun k => { k with control := k.control ++ [⟨farAddress s.cl.role, .octets a, ref⟩] })
     | none => s)
  | .linkRate (some i) => linkSend (.rateOk i) ref s
  | .linkRate none => (match s.cl.proposal with | some (i, _) => linkSend (.rate i) ref s | none => s)
  | .linkClose => linkSend .close ref s
  | .linkCloseAck => linkSend .closeAck ref s
  | _ => s

/-- A frame of the link is SENT. -/
def linkSent (ref : FrameRef) (s : State) : State :=
  match ref with
  | .linkData _ =>
    if s.cl.timer = .stopped ∧ s.cl.outstanding ≠ [] then s.updCl fun c => { c with timer := startedTimer s } else s
  | .linkSetupAck => if s.cl.state = .setup then enterOpen s else s
  | .linkRate (some i) => if s.cl.state.isOpen then linkRetrain i s else s
  | .linkRate none =>
    s.updCl fun c => { c with proposal := c.proposal.map fun p => (p.1, if linkSilent s then .suspended else .running) }
  | .linkClose => if s.cl.state = .closing then s.updCl fun c => { c with timer := startedTimer s } else s
  | .linkCloseAck => endLink .closed s
  | _ => s

/-- A report of the channel reaches the link. -/
def linkReport (r : ChanReport) (s : State) : State :=
  if s.cl.state = .ended then s
  else match r with
    | .tx ref .sent => linkWork (linkSent ref s)
    | .tx ref .sentAborted => linkWork (reoffer ref s)
    | .tx _ .discarded => s
    | .dry => s
    | .lost => linkWork (enterHistory false s)

/-! ## Timers (R175, R179, R185) -/

/-- The reply timer expires (R179, R185). The retry count stays at 15, the end of its range (Table 9-1, log 61). -/
def replyExpiry (s : State) : State :=
  if s.cl.timer ≠ .running then s
  else if s.cl.state = .closing then
    (if s.cl.closeCount < 3 then
      linkSend .close .linkClose (s.updCl fun c => { c with closeCount := c.closeCount + 1, timer := .stopped })
     else endLink .closed s)
  else if s.cl.retries = s.clSet.retryLimit then endLink .linkFailed s
  else
    let s := s.updCl fun c => { c with retries := min 15 (c.retries + 1) }
    match s.cl.outstanding with
    | d :: _ => restartTimer (sendAgain true d s)
    | [] => restartTimer s

/-! ## Training and carrier (R174, R176, R184) -/

/-- A training completes outside RETRAINING: at its first, both directions are enabled and the setup begins (R174). -/
def linkTrained (i : Fin 6) (q : Fin 64) (s : State) : State :=
  match s.cl.line with
  | none => s
  | some l =>
    let s := s.updCl fun c => { c with rate := i, quality := q }
    match s.cl.state with
    | .setup =>
      if (s.fc.get l).rxState = .off then
        let s := s.updFc l fun c => (c.enableTx (s.su.get l).holds .framed).enableRx .framed
        match s.cl.role with
        | .caller => sendCallUp s
        | .answerer => s.updCw fun w => { w with setup := .wait }
      else s
    | _ => s

/-- A training completes (R184). In RETRAINING: the new rate and RATE, the history cleared, the return state, every outstanding frame
not already queued sent again, and the timers; the free space is judged again (R182). -/
def linkBack (i : Fin 6) (q : Fin 64) (s : State) : State :=
  if s.cl.state = .retraining then
    let back := s.cl.returnState.getD .opened
    let s := linkNotice .rate (s.updCl fun c => { c with rate := i, quality := q, history := [], goodRun := 0, returnState := none })
    let s := resumeTimers (s.updCl fun c => { c with state := back })
    linkWork (judgeSpace (restartTimer (forEach sendAgainOnce s.cl.outstanding s)))
  else if s.cl.state = .closing then linkWork (resumeTimers (linkTrained i q s))
  else linkTrained i q s

/-- The line's Signal Unit has begun a retrain (R184). -/
def linkRetrains (s : State) : State := enterRetraining s

end Sys2Proof.Machine
end

