-- ==== Sys2Proof/Machine/VoiceArith.lean ====
section
/-! DEFINITION. The arithmetic of the voice path (spec 05 R96 to R109), in exact integers narrowed where the rule says so. -/

namespace Sys2Proof.Machine

/-! ## Gain and silence (R96, R97) -/

/-- Clamped to -32768..32767. -/
def clamp16 (x : Int) : Int := clampInt (-32768) 32767 x

/-- The gain stage: floor(x g / 16), clamped (R96). -/
def gain (g : Nat) (x : Int) : Int := clamp16 (x * g / 16)

/-- A sample as a 16-bit word holds it. -/
def sampleOf (x : BitVec 16) : Int := x.toInt

/-! ## Rates -/

/-- Samples a second of a storage rate. -/
def Rate.hz : Rate → Nat
  | .r7200 => 7200
  | .r8000 => 8000
  | .r9600 => 9600

/-- The recording step S (R99). -/
def recordStep : Rate → Nat
  | .r9600 => 60
  | .r8000 => 72
  | .r7200 => 80

/-- The playback step S (R99). -/
def playStep : Rate → Nat
  | .r9600 => 60
  | .r8000 => 50
  | .r7200 => 45

/-- The samples a full block holds (Table 5-3). -/
def blockSamples : Code → Nat
  | .q4 => 1008
  | .q8 => 504

/-! ## Prefilter (R98) -/

/-- One prefilter output from a sample and its neighbours. -/
def smooth (a b c : Int) : Int := (a + 2 * b + c + 2) / 4

/-- A gained sample enters the prefilter: the history after it, and the output produced. At 9600 the output is the input. -/
def prefilter (r : Rate) (hist : List Int) (y : Int) : List Int × List Int :=
  match r, hist with
  | .r9600, _ => ([], [y])
  | _, [] => ([y], [])
  | _, [a] => ([a, y], [smooth y a y])
  | _, _ :: b :: _ => ([b, y], match hist with | a :: _ => [smooth a b y] | [] => [])

/-- The last prefilter output of a recording that stops, by the mirror rule. -/
def prefilterEnd (r : Rate) (hist : List Int) : List Int :=
  match r, hist with
  | .r9600, _ => []
  | _, [] => []
  | _, [a] => [a]
  | _, a :: b :: _ => [smooth a b a]

/-! ## Resampler (R99) -/

/-- The output between two inputs at a fraction of 60. -/
def interpolate (a b : Int) (f : Nat) : Int := (a * (60 - f) + b * f + 30) / 60

/-- Drop inputs that lie wholly behind the position: it stays below 120. `fuel` bounds the inputs dropped. -/
def dropBehind : Nat → List Int → Nat → List Int × Nat
  | 0, held, p => (held, p)
  | k + 1, held, p => if 120 ≤ p ∧ held ≠ [] then dropBehind k held.tail (p - 60) else (held, p)

/-- The outputs whose two inputs are held (log 13): what is still held, the position, and the outputs. -/
def resampleRun : Nat → Nat → List Int → Nat → List Int × Nat × List Int
  | 0, _, held, p => (held, p, [])
  | k + 1, st, held, p =>
    match held[p / 60]?, held[p / 60 + 1]? with
    | some a, some b =>
      let d := dropBehind 4 held (p + st)
      let r := resampleRun k st d.1 d.2
      (r.1, r.2.1, interpolate a b (p % 60) :: r.2.2)
    | _, _ => (held, p, [])

/-- The input after the last one held, by the mirror rule: u[m-2], or u[0] when m is 1. -/
def mirrored (held : List Int) : Int :=
  match held.reverse with
  | _ :: b :: _ => b
  | [a] => a
  | [] => 0

/-- The outputs due when the input has ended: every one whose position is below 60 times the inputs held. -/
def resampleEnd : Nat → Nat → List Int → Nat → List Int
  | 0, _, _, _ => []
  | k + 1, st, held, p =>
    match held[p / 60]? with
    | some a => interpolate a ((held[p / 60 + 1]?).getD (mirrored held)) (p % 60) :: resampleEnd k st held (p + st)
    | none => []

/-! ## Q4 (R100, R101) -/

/-- The step table (Table 5-2). -/
def q4Step (k : Nat) : Nat :=
  ([16, 19, 22, 25, 29, 33, 38, 43, 49, 56, 64, 73, 83, 94, 106, 120, 136, 154, 174, 196, 221, 249, 281, 317, 357, 402, 453, 510,
    574, 646, 727, 818, 921, 1037, 1167, 1313, 1478, 1663, 1871, 2105, 2369, 2666, 3000, 3376, 3799, 4274, 4809,
    5411][k]?).getD 5411

/-- The step index adjustment of a magnitude code (R100). -/
def q4Adjust (c : Nat) : Int := (([-1, -1, 0, 0, 1, 2, 3, 4] : List Int)[c]?).getD 4

/-- Steps 3 to 5 of R100: the predictor and step index after a nibble. -/
def q4Update (sgn : Bool) (c : Nat) (p : Int) (k : Nat) : Int × Nat :=
  let r : Int := ((2 * c + 1) * q4Step k / 8 : Nat)
  (clamp16 (if sgn then p - r else p + r), (clampInt 0 47 ((k : Int) + q4Adjust c)).toNat)

/-- The sign and magnitude code of a sample (R100 steps 1 and 2). -/
def q4Code (z p : Int) (k : Nat) : Bool × Nat :=
  (decide (z - p < 0), min 7 (4 * (z - p).natAbs / q4Step k))

/-- Code one sample: the nibble, and the predictor and step index after it (R100). -/
def q4Encode (z p : Int) (k : Nat) : Nat × Int × Nat :=
  let sc := q4Code z p k
  ((if sc.1 then 8 else 0) + sc.2, q4Update sc.1 sc.2 p k)

/-- Decode one nibble: the predictor and step index after it (R101). -/
def q4Decode (n : Nat) (p : Int) (k : Nat) : Int × Nat :=
  if 8 ≤ n then q4Update true (n - 8) p k else q4Update false n p k

/-! ## Q8 (R102) -/

/-- The dither value of a sample index and a block sequence (R102). -/
def ditherOf (d : Dither) (seq j : Nat) : Int :=
  match d with
  | .none => 128
  | .alt => if j % 2 = 0 then 64 else 192
  | .altBlock => if seq % 2 = j % 2 then 64 else 192

/-- The Q8 code of a sample (R102). -/
def q8Encode (z dv : Int) : Int := clampInt (-128) 127 ((z + dv) / 256)

/-- The sample a Q8 code gives (R102). -/
def q8Decode (q : Int) : Int := q * 256 + 128

/-! ## Voice blocks (R103, Table 11-7, R208) -/

/-- Byte 7 of the header: the voice format. -/
def formatByte (f : VoiceFormat) : Nat :=
  (match f.code with | .q4 => 0 | .q8 => 16) + (match f.rate with | .r7200 => 0 | .r8000 => 1 | .r9600 => 2)

/-- The eight header bytes of a voice block. -/
def headerBytes (seq : Nat) (p : Int) (count k : Nat) (f : VoiceFormat) : List Byte :=
  leBytes 2 seq ++ leBytes 2 (p % 65536).toNat ++ leBytes 2 count ++ [BitVec.ofNat 8 k, BitVec.ofNat 8 (formatByte f)]

/-- The predictor in a header: bytes 2 and 3, signed. -/
def headerP (bs : List Byte) : Int :=
  let v := leNat ((bs.drop 2).take 2)
  if v < 32768 then v else (v : Int) - 65536

/-- The sample count in a header: bytes 4 and 5. -/
def headerCount (bs : List Byte) : Nat := leNat ((bs.drop 4).take 2)

/-- The step index in a header: byte 6. -/
def headerK (bs : List Byte) : Nat := ((bs[6]?).getD 0).toNat

/-- The header of a block that has been written is well formed for a voice format (R208). -/
def headerOk (f : VoiceFormat) (bs : List Byte) : Bool :=
  decide (headerCount bs ≤ blockSamples f.code ∧ headerK bs ≤ 47 ∧ (bs[7]?).getD 0 = BitVec.ofNat 8 (formatByte f))

/-- The coded byte or nibble of sample `i` of a block. -/
def codedAt (code : Code) (bs : List Byte) (i : Nat) : Nat :=
  match code with
  | .q8 => ((bs[8 + i]?).getD 0).toNat
  | .q4 =>
    let b := ((bs[8 + i / 2]?).getD 0).toNat
    if i % 2 = 0 then b % 16 else b / 16

/-- Append a coded sample to the block's bytes, `fill` samples being there: Q4 packs two to a byte, the earlier low (R101). -/
def placeCode (code : Code) (fill v : Nat) (bs : List Byte) : List Byte :=
  match code with
  | .q8 => bs ++ [BitVec.ofNat 8 v]
  | .q4 =>
    if fill % 2 = 0 then bs ++ [BitVec.ofNat 8 v]
    else bs.dropLast ++ [BitVec.ofNat 8 (((bs.getLast?).getD 0).toNat + 16 * v)]

/-! ## Trimming (R108, R109) -/

/-- The storage samples produced before line sample `n`, less the samples dropped (R108). -/
def cutAt (r : Rate) (n dropped : Nat) : Nat := ceilDiv (60 * n) (recordStep r) - dropped

/-- 500 ms of storage samples (R108). -/
def halfSecond (r : Rate) : Nat := Rate.hz r / 2

end Sys2Proof.Machine
end

