-- ==== Sys2Proof/Machine/VoiceOps.lean ====
section
/-! DEFINITION. A voice context's operations on its entry (spec 05 R95, R103 to R109; 04 R88): coding into blocks, the turn of the
staging buffers, the end of a recording, and playback block by block. -/

namespace Sys2Proof.Machine

/-! ## Reports (R125) -/

/-- An operation starts: a fresh report, and STARTED. -/
def startReport (c : CtxId) (op : VoiceOp) (p : Option PortId) (n : Option (Fin 128)) (s : State) : State :=
  voiceNotice c .started (s.updReport c fun _ => ⟨op, p, n, 0, none, none, none, false⟩)

/-- A LATE block is counted and reported (R88, R125). -/
def reportLate (c : CtxId) (s : State) : State :=
  voiceNotice c .late (s.updReport c fun r => { r with late := r.late + 1 })

/-- The number of line samples a context's line has brought (log 14). -/
def clockOfCtx (c : CtxId) (s : State) : Nat :=
  match lineOfCtx c with
  | some l => (s.su.get l).sampleClock
  | none => 0

/-! ## Recording (R95, R103) -/

/-- Start recording into a WRITING entry (R95): the settings are copied, the entry's voice format with them, and every arithmetic
field is zeroed. -/
def startRecording (c : CtxId) (n : Fin 128) (s : State) : State :=
  let v := (s.vp.get c).settings
  let f : VoiceFormat := ⟨v.code, v.rate, some v.dither⟩
  (s.updStore fun st => st.updDir n fun e => { e with format := some f }).updCtx c fun _ =>
    { VoiceCtx.idle v with activity := .recording, format := f, dither := v.dither, silenceTime := v.silenceTime,
                           maxLength := v.maxLength, entry := some n, holder := some (writeHolder c),
                           startClock := clockOfCtx c s }

/-- A sample is coded and placed in the block being filled (R100, R102, R103); `j` is its storage position. -/
def VoiceCtx.place (z : Int) (j : Nat) (v : VoiceCtx) : VoiceCtx :=
  let bytes := if v.fill = 0 then headerBytes v.blockSeq v.pred 0 v.step v.format else v.present.bytes
  match v.format.code with
  | .q4 =>
    let r := q4Encode z v.pred v.step
    { v with pred := r.2.1, step := r.2.2, fill := v.fill + 1,
             present := { v.present with bytes := placeCode .q4 v.fill r.1 bytes } }
  | .q8 =>
    let q := q8Encode z (ditherOf v.dither v.blockSeq j)
    { v with fill := v.fill + 1, present := { v.present with bytes := placeCode .q8 v.fill (q % 256).toNat bytes } }

/-- A sample is coded and dropped (R103): the coder advances, nothing is placed. -/
def VoiceCtx.drop (z : Int) (v : VoiceCtx) : VoiceCtx :=
  let r := q4Encode z v.pred v.step
  { v with dropped := v.dropped + 1, lateDrop := v.lateDrop.map (· + 1),
           pred := if v.format.code = .q4 then r.2.1 else v.pred, step := if v.format.code = .q4 then r.2.2 else v.step }

/-- The block being filled is full (R103). -/
def VoiceCtx.isFull (v : VoiceCtx) : Bool := decide (blockSamples v.format.code ≤ v.fill)

/-- A coded sample of a recording: placed, growing the entry's length by 1, or dropped after a LATE (R103). -/
def recordOutput (c : CtxId) (z : Int) (s : State) : State :=
  match (s.vp.get c).entry with
  | none => s
  | some n =>
    if (s.vp.get c).lateDrop.isSome then s.updCtx c (VoiceCtx.drop z)
    else
      (s.updCtx c (VoiceCtx.place z s.store.dir[n].length)).updStore fun st =>
        st.updDir n fun e => { e with length := e.length + 1 }

/-- Bytes padded to a whole store block. -/
def padBlock (bs : List Byte) : List Byte := bs ++ List.replicate (Config.blockBytes - bs.length) 0

/-- A block's bytes with the sample count in its header (R103). -/
def withCount (k : Nat) (bs : List Byte) : List Byte := bs.take 4 ++ leBytes 2 k ++ bs.drop 6

/-- How the turn of a full block went (R88, R103). -/
inductive Turn where
  | taken | storeFull | late
deriving DecidableEq, Repr

/-- The filled block goes into transfer: the store allocates its block, and the other buffer is taken (R88, R103). -/
def turnRecord (c : CtxId) (s : State) : State × Turn :=
  let v := s.vp.get c
  match v.entry with
  | none => (s, .taken)
  | some n =>
    if v.other.block.isSome then (s, .late)
    else match s.store.allocateVoice n with
      | none => (s, .storeFull)
      | some st =>
        let num := (st.dir[n].blocks.getLast?).map (·.num)
        let s := onStore (fun _ => st.updDir n fun e =>
          { e with blocks := e.blocks.dropLast ++ (num.toList.map fun b => ⟨b, v.fill⟩) }) s
        (s.updCtx c fun v =>
          { v with other := ⟨padBlock (withCount v.fill v.present.bytes), num, v.fill, 0⟩, present := .empty, fill := 0,
                   blockSeq := (v.blockSeq + 1) % 65536, lateDrop := none }, .taken)

/-- One burst of the buffer in transfer reaches the DRAM (R87): 64 bytes at their place in the block. -/
def writeBurst (b : StageBuf) (m : List Host.Cell) : List Host.Cell :=
  match b.block with
  | none => m
  | some num =>
    memWriteBytes (num * Config.blockBytes + b.served * Config.burstBytes)
      ((b.bytes.drop (b.served * Config.burstBytes)).take Config.burstBytes) m

/-- The transfer of a recorded block ends: its samples are committed and the buffer is free (R75, R103). -/
def commitRecord (c : CtxId) (s : State) : State :=
  match (s.vp.get c).entry with
  | none => s
  | some n =>
    (s.updStore fun st => st.updDir n fun e =>
        { e with committed := e.committed + (s.vp.get c).other.samples }).updCtx c fun v =>
      { v with other := .empty, burst := false }

/-- Serve the rest of a recorded block's transfer: `k` bursts at most (log 20). -/
def serveRecord (c : CtxId) : Nat → State → State
  | 0, s => s
  | k + 1, s =>
    let b := (s.vp.get c).other
    if b.block.isNone then s
    else
      let s := (s.updStore fun st => { st with dram := writeBurst b st.dram }).updCtx c fun v =>
        { v with other := { v.other with served := v.other.served + 1 } }
      serveRecord c k (if b.served + 1 < 8 then s else commitRecord c s)

/-- The allocation of a recording's block was refused: TRUNCATED is set on its entry (R71). -/
def markTruncated (c : CtxId) (s : State) : State :=
  match (s.vp.get c).entry with
  | none => s
  | some n => onStore (fun st => st.updDir n fun e => { e with truncated := true }) s

/-- Write out the block being filled, if it holds samples; a refused allocation loses its samples and truncates the entry
(R71, R104, log 46). -/
def writeOut (c : CtxId) (s : State) : State :=
  if (s.vp.get c).fill = 0 then s
  else
    let s := serveRecord c 8 s
    match turnRecord c s with
    | (t, .taken) => serveRecord c 8 t
    | (t, .storeFull) => markTruncated c t
    | (t, .late) => t

/-- The outputs of a flush, each coded; a block that fills is written out at once (R104). -/
def flushOutputs (c : CtxId) : List Int → State → State
  | [], s => s
  | z :: zs, s =>
    let s := recordOutput c z s
    flushOutputs c zs (if (s.vp.get c).isFull then writeOut c s else s)

/-- Flush a recording (R104): the prefilter's last output, every resampler output due, and the partly filled block. -/
def flushRecording (c : CtxId) (s : State) : State :=
  let s := serveRecord c 8 s
  let s := if (s.vp.get c).isFull then writeOut c s else s
  let v := s.vp.get c
  let held := v.held ++ prefilterEnd v.format.rate v.hist
  let r := resampleRun 4 (recordStep v.format.rate) held v.pos
  writeOut c (flushOutputs c (r.2.2 ++ resampleEnd 4 (recordStep v.format.rate) r.1 r.2.1) s)

/-- The samples not committed are lost: the entry is cut back to its committed length (R103, R104). -/
def cutToCommitted (n : Fin 128) (s : State) : State :=
  if s.store.dir[n].committed < s.store.dir[n].length then cutEntry n s.store.dir[n].committed s else s

/-- The cut of a stop reason (R108): `tail` is the line sample at which the unwanted tail began. -/
def cutOf (r : StopReason) (rate : Rate) (dropped length tail : Nat) : Nat :=
  match r with
  | .silence => cutAt rate tail dropped
  | .tone => cutAt rate tail dropped
  | .loopBreak => length - halfSecond rate
  | _ => length

/-- A recording stops (R103, R104, R109, R119): flushed unless STORE-FULL or LATE ended it, trimmed, and completed or discarded.
`kept` answers whether it was kept. -/
def endRecording (c : CtxId) (r : StopReason) (tail : Nat) (s : State) : State × Bool :=
  match (s.vp.get c).entry with
  | none => (s, false)
  | some n =>
    let v := s.vp.get c
    let s := if r = .storeFull ∨ r = .late then serveRecord c 8 s else flushRecording c s
    let s := cutToCommitted n s
    let s := if r = .storeFull then markTruncated c s else s
    let len := s.store.dir[n].length
    let cut := cutOf r v.format.rate v.dropped len tail
    let s := if cut < len then cutEntry n cut s else s
    let kept := decide (Rate.hz v.format.rate ≤ min cut len)
    let trunc := s.store.dir[n].truncated
    let s := ctxIdle c s
    let s := if kept then completeWrite n (some r) s else discardWrite n s
    (voiceNotice c .ended (s.updReport c fun q => { q with stop := some r, kept := some kept, truncated := trunc }), kept)

/-- A recording is dropped without a stop reason, by classification (R12, R119). -/
def dropRecording (c : CtxId) (s : State) : State :=
  match (s.vp.get c).entry with
  | none => s
  | some n =>
    let trunc := s.store.dir[n].truncated
    voiceNotice c .ended ((discardWrite n (ctxIdle c s)).updReport c fun q => { q with kept := some false, truncated := trunc })

/-! ## Playback (R95, R105 to R107) -/

/-- The entry and position a context plays from. -/
def playHandle (c : CtxId) (s : State) : Option Handle := (s.vp.get c).holder.bind s.store.handle?

/-- The next block to be taken goes into transfer to the free buffer (R88, R105). -/
def fetchNext (c : CtxId) (s : State) : State :=
  match playHandle c s with
  | none => s
  | some h =>
    let e := s.store.dir[h.entry]
    if (s.vp.get c).other.block.isSome ∨ e.committed ≤ h.pos then s
    else match blockAt e.blocks 0 0 h.pos with
      | none => s
      | some b => s.updCtx c fun v => { v with other := ⟨[], some b.2.num, b.2.samples, 0⟩ }

/-- Start playing through a handle, at the block its position names (R95, R107). -/
def startPlayback (c : CtxId) (h : Holder) (s : State) : State :=
  match s.store.handle? h with
  | none => s
  | some k =>
    let v := (s.vp.get c).settings
    fetchNext c (s.updCtx c fun _ =>
      { VoiceCtx.idle v with activity := .playing, format := (s.store.dir[k.entry].format).getD ⟨v.code, v.rate, none⟩,
                             entry := some k.entry, holder := some h, startClock := clockOfCtx c s })

/-- The handle moves past the block that has been taken or skipped, never beyond the committed length (R76, R105, R106). -/
def passBlock (c : CtxId) (samples : Nat) (s : State) : State :=
  match playHandle c s with
  | none => s
  | some h => onStore (Store.moveHandle h.holder (min (h.pos + samples) s.store.dir[h.entry].committed)) s

/-- The staging buffer that has been brought is taken: p and k are loaded from its header (R105). -/
def takeBuffer (c : CtxId) (s : State) : State :=
  let b := (s.vp.get c).other
  fetchNext c (passBlock c b.samples (s.updCtx c fun v =>
    { v with present := b, other := .empty, sampleIdx := 0, pred := headerP b.bytes, step := headerK b.bytes, primed := true,
             blockSeq := leNat (b.bytes.take 2) }))

/-- The sample count the store holds for the block at a context's position (R106). -/
def heldCount (c : CtxId) (s : State) : Nat :=
  match playHandle c s with
  | none => 0
  | some h => ((blockAt s.store.dir[h.entry].blocks 0 0 h.pos).map (·.2.samples)).getD 0

/-- The block that was not brought in time is skipped: as many zeros as the store holds samples of it (R106). -/
def skipBlock (c : CtxId) (s : State) : State :=
  let k := heldCount c s
  reportLate c (fetchNext c (passBlock c k (s.updCtx c fun v =>
    { v with present := ⟨[], none, k, 0⟩, other := .empty, sampleIdx := 0, burst := false })))

/-- The turn of a playing context whose present buffer is used up (R88, R105, R106): the block that comes next is in transfer since it
was committed, so one not brought yet is LATE, but for the first after the start or a wait (log 12). -/
def playTurn (c : CtxId) (s : State) : State :=
  let s := fetchNext c s
  match playHandle c s with
  | none => s
  | some h =>
    let v := s.vp.get c
    if v.other.block.isSome then
      (if v.other.served = 8 then takeBuffer c s else if v.primed then skipBlock c s else s)
    else if s.store.dir[h.entry].state = .writing then s.updCtx c fun v => { v with waiting := true }
    else s.updCtx c fun v => { v with ended := true }

/-- The present buffer is used up. -/
def VoiceCtx.usedUp (v : VoiceCtx) : Bool := decide (v.present.samples ≤ v.sampleIdx)

/-- The next storage sample of the present buffer: decoded, or 0 in a skipped block (R101, R102, R106). -/
def VoiceCtx.nextSample (v : VoiceCtx) : Int × VoiceCtx :=
  if v.present.bytes = [] then (0, { v with sampleIdx := v.sampleIdx + 1 })
  else match v.format.code with
    | .q4 =>
      let r := q4Decode (codedAt .q4 v.present.bytes v.sampleIdx) v.pred v.step
      (r.1, { v with sampleIdx := v.sampleIdx + 1, pred := r.1, step := r.2 })
    | .q8 =>
      let q := codedAt .q8 v.present.bytes v.sampleIdx
      (q8Decode (if q < 128 then q else (q : Int) - 256), { v with sampleIdx := v.sampleIdx + 1 })

/-- Bring the inputs the next output needs; `fuel` bounds the samples and turns. -/
def fillInputs (c : CtxId) : Nat → State → State
  | 0, s => s
  | k + 1, s =>
    let v := s.vp.get c
    if v.held.length < v.pos / 60 + 2 ∧ v.ended = false ∧ v.waiting = false then
      (if v.usedUp then fillInputs c k (playTurn c s)
       else
        let r := v.nextSample
        fillInputs c k (s.updCtx c fun _ => { r.2 with held := v.held ++ [r.1] }))
    else s

/-- One output of a playback at the line rate, before the gain; silence while it waits (R99, R105, R106). -/
def playOutput (c : CtxId) (s : State) : State × Int :=
  let s := fillInputs c 8 s
  let v := s.vp.get c
  let st := playStep v.format.rate
  let move := fun (w : VoiceCtx) =>
    let d := dropBehind 4 w.held (w.pos + st)
    { w with held := d.1, pos := d.2, lineCount := w.lineCount + 1 }
  match v.held[v.pos / 60]?, v.held[v.pos / 60 + 1]? with
  | some a, some b => (s.updCtx c move, interpolate a b (v.pos % 60))
  | some a, none =>
    if v.ended then
      (s.updCtx c fun w => { w with pos := w.pos + st, lineCount := w.lineCount + 1 }, interpolate a (mirrored v.held) (v.pos % 60))
    else (s.updCtx c fun w => { w with lineCount := w.lineCount + 1 }, 0)
  | none, _ => (s.updCtx c fun w => { w with lineCount := w.lineCount + 1 }, 0)

/-- A playback has given its last output (R105). -/
def VoiceCtx.playedOut (v : VoiceCtx) : Bool :=
  v.activity == .playing && v.ended && decide (60 * v.held.length ≤ v.pos)

end Sys2Proof.Machine
end

