-- ==== Sys2Proof/Machine/VmOps.lean ====
section
/-! DEFINITION. The Voice Message Controller's operations (spec 06): sessions, signals, retrieval, port operations, and how a line's
clearing, a take-over or an intercept ends them. -/

namespace Sys2Proof.Machine

/-! ## Session phases (Table 6-1, R120, R125) -/

/-- The phases in which a screened line qualifies (R120). -/
def Phase.qualifies : Phase → Bool
  | .greeting => true
  | .announce => true
  | .beep => true
  | .recording => true
  | _ => false

/-- Change the phase of a line's session: PHASE is raised, and the order of entry to a qualifying phase is kept (R120, R125). -/
def setPhase (l : LineId) (ph : Phase) (s : State) : State :=
  let q := s.vm.session.get l
  if q.phase = ph then s
  else
    let s := s.updSession l fun r =>
      { r with phase := ph,
               qualified := if !ph.qualifies then none else if q.phase.qualifies then r.qualified else some s.vm.stamp }
    voiceNotice (ctxOf l) .phase (s.updVm fun v => { v with stamp := v.stamp + 1 })

/-- The session ends: the record returns to the values of R112 but for the mailbox. -/
def endSession (l : LineId) (s : State) : State :=
  let s := setPhase l .none s
  (s.updSession l fun r => .none r.mailbox).setSignal l .none

/-- The key timer of the retrieval menu (R128). -/
def setKeyTimer (l : LineId) (on : Bool) (s : State) : State := s.updSession l fun r => { r with keyTimer := on }

/-- The phase becomes MENU and the key timer runs (R128). -/
def enterMenu (l : LineId) (s : State) : State := setKeyTimer l true (setPhase l .menu s)

/-! ## Beeps and signals (R116, R123, R127, R129) -/

/-- Send a beep for a purpose. -/
def sendBeep (l : LineId) (g : Signal) (s : State) : State := startTone l .beep (s.setSignal l g)

/-- The operation that was a beep ends (R125). -/
def endBeepReport (l : LineId) (e : PlayEnd) (s : State) : State :=
  let r := s.vm.report.get (ctxOf l)
  if r.op = .beep ∧ r.playEnd = none then
    voiceNotice (ctxOf l) .ended (s.updReport (ctxOf l) fun r => { r with playEnd := some e })
  else s

/-- Stop a beep or signal. -/
def stopSignal (l : LineId) (s : State) : State :=
  if s.vm.signal.get l = .none then s else endBeepReport l .stopped ((endTone l .cut s).setSignal l .none)

/-- The acceptance signal: one beep (R127). -/
def sendAccept (l : LineId) (next : Bool) (s : State) : State := sendBeep l (.accept next) s

/-- The refusal signal: two beeps (R127). -/
def sendRefuse (l : LineId) (next : Bool) (s : State) : State := sendBeep l (.refuseFirst next) s

/-! ## Playing (R74, R114, R122) -/

/-- Open a context's play handle on an entry at position 0, closing the one in use (R74). -/
def openPlay (c : CtxId) (n : Fin 128) (s : State) : State :=
  onStore (fun st => (st.closeHandle (playHolder c)).openHandle ⟨playHolder c, n, false, 0⟩) s

/-- Play an entry from position 0 for a session. -/
def playEntry (l : LineId) (op : VoiceOp) (n : Fin 128) (s : State) : State :=
  let c := ctxOf l
  startReport c op none (some n) (startPlayback c (playHolder c) (openPlay c n s))

/-- Stop the playback of a line's session, its handle closed. -/
def stopPlay (l : LineId) (e : PlayEnd) (s : State) : State :=
  if (s.vp.get (ctxOf l)).activity = .playing then
    endPlayback (ctxOf l) (.linePlay l) e s
  else onStore (Store.closeHandle (.linePlay l)) s

/-- The COMPLETE entry of a kind and mailbox: there is at most one (R81). -/
def completeOf (k : Kind) (m : Fin 5) (st : Store) : Option (Fin 128) :=
  allNumbers.find? fun n => st.dir[n].state == .complete && st.dir[n].kind == k && st.dir[n].mailbox == some m

/-! ## The answering session (R114 to R117) -/

/-- The phase becomes BEEP and a beep is asked for (R116). DESIGN CHOICE, unsafe (log 73): of all beeps this one alone is the operation
BEEP of the report (R125). -/
def startBeep (l : LineId) (s : State) : State :=
  sendBeep l .sessionBeep (startReport (ctxOf l) .beep none none (setPhase l .beep s))

/-- The mailbox's greeting from position 0, or the beep where it has none (R114, R115). -/
def startGreeting (l : LineId) (m : Fin 5) (s : State) : State :=
  let s := s.updSession l fun r => { r with mailbox := m }
  match completeOf .greeting m s.store with
  | some n => playEntry l .greeting n (setPhase l .greeting s)
  | none => startBeep l s

/-- Open an answering session (R114): none if the store can no longer take a voice message. -/
def openSession (l : LineId) (classify : Bool) (s : State) : Option State :=
  if s.store.takesVoice then
    some (startGreeting l 0 ((setMode l .voice s).updSession l fun r => { r with classification := classify }))
  else none

/-- The announcement only (R114): none if the announcement has gone. -/
def openAnnounce (l : LineId) (s : State) : Option State :=
  (completeOf .announce 0 s.store).map fun n =>
    playEntry l .announce n (setPhase l .announce ((setMode l .voice s).updSession l fun r => { r with mailbox := 0 }))

/-- A line's writer asks for a new voice entry (R67). -/
def newVoice (c : CtxId) (k : Kind) (m : Fin 5) (s : State) : Option (Fin 128 × State) :=
  let v := (s.vp.get c).settings
  let src : Source := match lineOfCtx c with | some l => .line l | none => .loc
  let caller := match lineOfCtx c with | some l => (s.lc.get l).caller | none => none
  (s.store.newEntry s.tod ⟨k, src, some m, none, some ⟨v.code, v.rate, none⟩, caller, writeHolder c⟩).map fun r =>
    (r.1, onStore (fun _ => r.2) s)

/-- A session's recording starts into a new entry (R116, R129); none if no entry is FREE. -/
def recordEntry (l : LineId) (k : Kind) (m : Fin 5) (s : State) : Option State :=
  (newVoice (ctxOf l) k m s).map fun r =>
    startReport (ctxOf l) .record none (some r.1)
      (startRecording (ctxOf l) r.1 (r.2.updSession l fun q => { q with entry := some r.1 }))

/-- The session's beep is done (R116): the recording starts, or without a FREE entry a note is asked for and the line cleared. -/
def beepDone (l : LineId) (s : State) : State :=
  let s := endBeepReport l .finished (s.setSignal l .none)
  match recordEntry l .voice (s.vm.session.get l).mailbox s with
  | some t => setPhase l .recording t
  | none => noteAndClear l (endSession l s)

/-! ## Ending a session's work (R16, R19, R117, R119, R127, R130) -/

/-- A context records. -/
def records (c : CtxId) (s : State) : Bool := (s.vp.get c).activity == .recording

/-- The reasons after which a session asks for no call note (R119). -/
def quietReason : StopReason → Bool
  | .taken => true
  | .intercept => true
  | .stopped => true
  | _ => false

/-- The playback and any beep of a session stop. -/
def stopSounds (l : LineId) (e : PlayEnd) (s : State) : State := stopPlay l e (stopSignal l s)

/-- A session's work ends for a reason that ends the session: the recording stops with it, a playback or beep stops, and a call
note is asked for where the phase asks for one. The line is not touched. -/
def stopSession (l : LineId) (r : StopReason) (tail : Nat) (s : State) : State :=
  let c := ctxOf l
  let e : PlayEnd := if r = .loopBreak then .cleared else .stopped
  match (s.vm.session.get l).phase with
  | .none => s
  | .recording =>
    let t := endRecording c r tail s
    endSession l (if t.2 ∨ quietReason r then t.1 else askCallNote l t.1)
  | .newGreeting => endSession l (if records c s then (endRecording c r tail s).1 else stopSignal l s)
  | .menu => endSession l (stopSounds l e s)
  | .playing => endSession l (stopSounds l e s)
  | .deliver =>
    endSession l (if (s.vp.get c).activity = .playing then
      voiceNotice c .ended ((ctxIdle c s).updReport c fun q => { q with playEnd := some e }) else s)
  | _ =>
    let t := stopSounds l e s
    endSession l (if r = .loopBreak ∨ r = .tone then askCallNote l t else t)

/-- The session's recording is stopped by its own condition (R118, R119, R129): an answering session ends and the line is
cleared; a new greeting is accepted or refused and the menu returns. -/
def stopOwn (l : LineId) (r : StopReason) (tail : Nat) (s : State) : State :=
  match (s.vm.session.get l).phase with
  | .newGreeting =>
    let t := endRecording (ctxOf l) r tail s
    let u := enterMenu l (t.1.updSession l fun q => { q with entry := none, selection := .none, cursor := none, offered := [] })
    if t.2 then sendAccept l false u else sendRefuse l false u
  | .recording => blockClear l (stopSession l r tail s)
  | _ => s

/-- The greeting, beep or recording stops for classification: a recording begun is discarded without a note, and the session ends
(R12, R117). -/
def leaveClassified (l : LineId) (s : State) : State :=
  let c := ctxOf l
  endSession l (if records c s then dropRecording c s else stopSounds l .stopped s)

/-! ## Port operations (R122 to R124) -/

/-- The work of a port's recording after its stop (R119). -/
def afterPortRecord (c : CtxId) (s : State) : State := releaseLocal c s

/-- The line of a context is off hook, or the context is LOCAL. -/
def ctxUp (c : CtxId) (s : State) : Bool :=
  match lineOfCtx c with
  | some l => (s.lc.get l).state.offHook
  | none => true

/-- A port's recording stops (R119): the line's Signal Unit goes to QUIET unless the line is clearing, LOCAL is released. -/
def stopPortRecord (c : CtxId) (r : StopReason) (tail : Nat) (s : State) : State :=
  let t := (endRecording c r tail s).1
  afterPortRecord c (if ctxUp c t then quietCtx c t else t)

/-- The beep of a port's RECORD is cut, and the RECORD waits for it no longer (R123). -/
def cutRecordBeep (l : LineId) (s : State) : State :=
  ((endTone l .cut s).setSignal l .none).updVm fun v => { v with pendingRecord := v.pendingRecord.set l none }

/-- A RECORD given up in its beep has ended with stop reason STOPPED and keeps nothing (R123, R125). -/
def reportGivenUp (c : CtxId) (s : State) : State :=
  voiceNotice c .ended (s.updReport c fun q => { q with stop := some .stopped, kept := some false })

/-- A port RECORD whose beep is being sent is given up: its entry is discarded with stop reason STOPPED (R123). -/
def dropPending (l : LineId) (s : State) : State :=
  match s.vm.pendingRecord.get l with
  | none => s
  | some n =>
    let c := ctxOf l
    let s := reportGivenUp c (discardWrite n (cutRecordBeep l s))
    if ctxUp c s then quietCtx c s else s

/-- A context works for a session of its line. -/
def sessionWorks (c : CtxId) (s : State) : Bool :=
  match lineOfCtx c with
  | some l => (s.vm.session.get l).phase != .none
  | none => false

/-- The beep of a port's RECORD is done: the recording starts (R123). -/
def recordBeepDone (l : LineId) (s : State) : State :=
  match s.vm.pendingRecord.get l with
  | none => s.setSignal l .none
  | some n => startRecording (ctxOf l) n ((s.setSignal l .none).updVm fun v => { v with pendingRecord := v.pendingRecord.set l none })

/-- The operations of a port on a line end because the line has cleared (R122, R123). -/
def clearPortWork (l : LineId) (r : StopReason) (s : State) : State :=
  let c := ctxOf l
  let s := dropPending l s
  if records c s then stopPortRecord c r 0 s
  else if (s.vp.get c).activity = .playing then endPortPlay c .cleared s
  else s

/-- The Voice Message Controller is told that its line has cleared (R13, R117, R119, R122, R130). -/
def voiceCleared (l : LineId) (loopBreak : Bool) (s : State) : State :=
  let r : StopReason := if loopBreak then .loopBreak else .stopped
  if (s.vm.session.get l).phase = .none then clearPortWork l r s else stopSession l r 0 s

/-- A port's operation on LOCAL ends as by STOP (R124). -/
def stopLocal (s : State) : State :=
  if records .loc s then stopPortRecord .loc .stopped 0 s
  else if (s.vp.get .loc).activity = .playing then endPortPlay .loc .stopped s
  else s

/-! ## Remote retrieval (R127 to R130) -/

/-- Access-code entry starts (R127). -/
def startAccess (l : LineId) (s : State) : State :=
  let s := stopSounds l .stopped s
  setPhase l .access (s.updSession l fun r => { r with classification := false, codeDigits := [], codeTimer := true })

/-- An item is still listed (R128). -/
def Store.listed (st : Store) (i : Item) : Bool :=
  st.dir[i.entry].state == .complete && st.dir[i.entry].kind == .voice && st.dir[i.entry].seqNo == i.seqNo

/-- The play list: every COMPLETE VOICE entry in ascending creation sequence (R128). -/
def Store.playList (st : Store) : List Item :=
  (sortOrder st (allNumbers.filter fun n => st.dir[n].state == .complete && st.dir[n].kind == .voice)).map fun n =>
    ⟨n, st.dir[n].seqNo⟩

/-- The retrieval menu begins (R128). -/
def startMenu (l : LineId) (s : State) : State :=
  sendAccept l false (enterMenu l (s.updSession l fun r =>
    { r with codeTimer := false, codeDigits := [], playList := s.store.playList, selection := .none, cursor := none,
             offered := [] }))

/-- A wrong code, or the code timer run out (R127). -/
def wrongCode (l : LineId) (s : State) : State :=
  let k := (s.vm.session.get l).wrongCodes + 1
  if k < 3 then s.updSession l fun r => { r with wrongCodes := k, codeDigits := [], codeTimer := true }
  else noteAndClear l (endSession l s)

/-- A digit in ACCESS (R127). -/
def accessDigit (l : LineId) (d : Fin 10) (s : State) : State :=
  let ds := (s.vm.session.get l).codeDigits ++ [d]
  if ds.length < 4 then s.updSession l fun r => { r with codeDigits := ds }
  else if s.vm.accessCode = some ds then startMenu l s
  else wrongCode l s

/-- Play an item of the list (R128). -/
def playItem (l : LineId) (i : Item) (s : State) : State :=
  playEntry l .retrieval i.entry
    (setKeyTimer l false (setPhase l .playing (s.updSession l fun r => { r with cursor := some i })))

/-- The first item of a list that is still listed, and the items after it. -/
def firstListed (st : Store) : List Item → Option (Item × List Item)
  | [] => none
  | i :: is => if st.listed i then some (i, is) else firstListed st is

/-- Go to the next offered item still listed, or at the end of the selection send the acceptance signal and return to the menu
(R129). The cursor's move closes the play handle first (R130). -/
def nextItem (l : LineId) (s : State) : State :=
  let s := onStore (Store.closeHandle (.linePlay l)) s
  match firstListed s.store (s.vm.session.get l).offered with
  | some (i, rest) => playItem l i (s.updSession l fun r => { r with offered := rest })
  | none => sendAccept l false (enterMenu l (s.updSession l fun r => { r with cursor := none, offered := [] }))

/-- Keys 1 and 2 (R128): a selection, played from its first item. -/
def selectItems (l : LineId) (new : Bool) (s : State) : State :=
  let s := stopSounds l .stopped s
  let items := (s.vm.session.get l).playList.filter fun i =>
    if new then s.store.listed i && !s.store.dir[i.entry].reviewed else true
  let s := s.updSession l fun r => { r with selection := if new then .new else .all }
  match firstListed s.store items with
  | some (i, rest) => playItem l i (s.updSession l fun r => { r with offered := rest })
  | none => sendRefuse l false (enterMenu l (s.updSession l fun r => { r with cursor := none, offered := [] }))

/-- Key 5 in PLAYING (R129, R130): the item's entry, while it is still listed, is deleted as a remote caller's delete key (R80). -/
def deleteItem (l : LineId) (s : State) : State :=
  let s := stopSounds l .stopped s
  match (s.vm.session.get l).cursor with
  | none => s
  | some i =>
    if s.store.listed i ∧ s.store.dir[i.entry].guarded = false then sendAccept l true (deleteEntry i.entry s) else sendRefuse l true s

/-- Key 6 (R129): a new greeting, or the refusal signal without room. -/
def startNewGreeting (l : LineId) (s : State) : State :=
  let s := stopSounds l .stopped s
  if s.store.freeEntry?.isSome ∧ s.store.reserve < s.store.free then
    sendBeep l .greetingBeep (setKeyTimer l false (setPhase l .newGreeting s))
  else sendRefuse l false (enterMenu l s)

/-- The beep of a new greeting is done: it is recorded, or refused where no entry is FREE any more (R129). -/
def greetingBeepDone (l : LineId) (s : State) : State :=
  let s := s.setSignal l .none
  match recordEntry l .greeting 0 s with
  | some t => t
  | none => sendRefuse l false (enterMenu l (s.updSession l fun q => { q with selection := .none, cursor := none, offered := [] }))

/-- Key 4 in PLAYING: the item again from position 0, through the same handle (R129). DESIGN CHOICE, unsafe (log 74): the playback it
restarts ends REPLACED. -/
def replayItem (l : LineId) (s : State) : State :=
  match s.store.handle? (.linePlay l) with
  | none => s
  | some h =>
    let c := ctxOf l
    let s := voiceNotice c .ended ((ctxIdle c s).updReport c fun q => { q with playEnd := some .replaced })
    startReport c .retrieval none (some h.entry) (startPlayback c (.linePlay l) (onStore (Store.seek (.linePlay l) 0) s))

/-- The session ends at key 9 or the key timer: no note, and the line is cleared (R130). -/
def leaveRetrieval (l : LineId) (s : State) : State := blockClear l (endSession l (stopSounds l .stopped s))

/-- A keypad digit in MENU or PLAYING (Table 6-4). -/
def menuKey (l : LineId) (d : Fin 10) (s : State) : State :=
  let playing := (s.vm.session.get l).phase = .playing
  match d.val with
  | 1 => selectItems l true s
  | 2 => selectItems l false s
  | 3 => if playing then nextItem l (stopSounds l .stopped s) else s
  | 4 => if playing then replayItem l s else s
  | 5 => if playing then deleteItem l s else s
  | 6 => startNewGreeting l s
  | 9 => leaveRetrieval l s
  | _ => s

/-- The end of a session's playback (R116, R126, R129). -/
def sessionPlayed (l : LineId) (s : State) : State :=
  let c := ctxOf l
  match (s.vm.session.get l).phase with
  | .greeting => startBeep l (endPlayback c (.linePlay l) .finished s)
  | .announce => noteAndClear l (endSession l (endPlayback c (.linePlay l) .finished s))
  | .playing =>
    nextItem l (voiceNotice c .ended ((ctxIdle c s).updReport c fun r => { r with playEnd := some .finished }))
  | .deliver =>
    blockClear l (endSession l (voiceNotice c .ended ((ctxIdle c s).updReport c fun r => { r with playEnd := some .finished })))
  | _ => s

/-- A playback reaches the end of its message (R105, R122). -/
def playbackEnds (c : CtxId) (s : State) : State :=
  if portPlays c s then endPortPlay c .finished s
  else match lineOfCtx c with
    | some l => sessionPlayed l s
    | none => s

/-- A recording ends by itself: STORE-FULL, LATE, MAX-LENGTH, SILENCE, KEY or TONE (Table 6-3, R119). -/
def recordingStops (c : CtxId) (r : StopReason) (tail : Nat) (s : State) : State :=
  match lineOfCtx c with
  | some l => if (s.vm.session.get l).phase = .none then stopPortRecord c r tail s else stopOwn l r tail s
  | none => stopPortRecord c r tail s

/-- A full block takes its turn (R88, R103): STORE-FULL and LATE end the recording, or with continue-on-late the samples that
follow are dropped until a buffer is free, one block's worth at most. DESIGN CHOICE, unsafe (log 57): when one block's worth has been
dropped and no buffer is free yet, the context is LATE again. -/
def recordTurn (c : CtxId) (s : State) : State :=
  match turnRecord c s with
  | (t, .taken) => t
  | (t, .storeFull) => recordingStops c .storeFull 0 t
  | (t, .late) =>
    let t := reportLate c t
    if (t.vp.get c).settings.continueLate then
      let t := match (t.vp.get c).entry with
        | some n => onStore (fun st => st.updDir n fun e => { e with truncated := true }) t
        | none => t
      t.updCtx c fun v => { v with lateDrop := some 0 }
    else recordingStops c .late 0 t

/-- A delivered message (R126): the session plays it through the queue entry's own handle. -/
def openDelivery (l : LineId) (n : Fin 8) (s : State) : State :=
  let c := ctxOf l
  let s := setPhase l .deliver (setMode l .voice s)
  startReport c .deliver none s.queue[n].message (startPlayback c (.entry n) s)

/-- A keypad digit reaches the Voice Message Controller (R115, R118, R127 to R129). -/
def voiceKey (l : LineId) (k : Key) (s : State) : State :=
  let q := s.vm.session.get l
  match q.phase, k with
  | .greeting, .digit d =>
    if h : 1 ≤ d.val ∧ d.val ≤ 4 then startGreeting l ⟨d.val, by omega⟩ (stopSounds l .stopped s) else s
  | .greeting, .star => if s.vm.accessCode.isSome then startAccess l s else s
  | .announce, .star => if s.vm.accessCode.isSome then startAccess l s else s
  | .access, .digit d => accessDigit l d s
  | .access, .star => s.updSession l fun r => { r with codeDigits := [], codeTimer := true }
  | .menu, .digit d => menuKey l d (if q.keyTimer then setKeyTimer l true s else s)
  | .playing, .digit d => menuKey l d s
  | .recording, .hash => stopOwn l .key 0 s
  | .newGreeting, .hash => if records (ctxOf l) s then stopOwn l .key 0 s else s
  | .none, .hash => if records (ctxOf l) s then stopPortRecord (ctxOf l) .key 0 s else s
  | _, _ => s

/-- The line sample a recording had reached at a moment (R108): 0 before its first. -/
def tailOf (c : CtxId) (m : Moment) (s : State) : Nat := m.clock - (s.vp.get c).startClock

/-- A cadence class DIAL, BUSY or CONGESTION reaches the Voice Message Controller (R117, R118, R126, R127, R130). -/
def voiceTone (l : LineId) (m : Moment) (s : State) : State :=
  let c := ctxOf l
  if (s.vm.session.get l).phase = .none then
    (if records c s then stopPortRecord c .tone (tailOf c m s) s else s)
  else blockClear l (stopSession l .tone (tailOf c m s) s)

end Sys2Proof.Machine
end

