-- ==== Sys2Proof/Machine/LineOps.lean ====
section
/-! DEFINITION. Calls on a line (spec 01 and 03): answering, classification, dialling, the end of a dial, clearing, releasing, and
the dispatch of queued calls. -/

namespace Sys2Proof.Machine

/-! ## Answering (R9 to R11) -/

/-- A ringing call is over or answered: ring count and snapshot are 0 and its timers stop. -/
def endRinging (l : LineId) (s : State) : State :=
  s.updLc l fun r => { r with ringCount := 0, snapshot := 0, ringGone := false, due := false, decided := false }

/-- Seize the line for a purpose (R11). -/
def seize (l : LineId) (p : Purpose) (s : State) : State :=
  moveLine l .seized ((endRinging l s).updLc l fun r => { r with purpose := p })

/-- Hand a seized call on: the line enters the state of its purpose with the block serving it; a block that refuses the call
leaves a note and a clearing line (R11). -/
def handOn (l : LineId) (st : LineState) (start : State → Option State) (s : State) : State :=
  match start (moveLine l st s) with
  | some t => t
  | none => noteAndClear l (if st = .data then refuseLink s else s)

/-- Seize and hand on (R11). -/
def answerFor (l : LineId) (p : Purpose) (st : LineState) (start : State → Option State) (s : State) : State :=
  handOn l st start (seize l p s)

/-- The answer decision (Table 1-11). -/
def answerDecision (l : LineId) (s : State) : State :=
  let s := s.updLc l fun r => { r with due := false, decided := true }
  let voice := s.store.takesVoice
  match (s.lc.get l).policy.answerMode with
  | .off => s
  | .voice =>
    if voice then answerFor l .voice .voice (openSession l false) s
    else if (completeOf .announce 0 s.store).isSome then answerFor l .voice .voice (openAnnounce l) s
    else s
  | .fax => if s.store.takesFax then answerFor l .fax .fax (startReceiver l) s else s
  | .data => if canTakeData s then answerFor l .data .data (startLink l .answerer) s else s
  | .auto =>
    if voice then answerFor l .voice .voice (openSession l true) s
    else if s.store.takesFax then answerFor l .fax .fax (startReceiver l) s
    else s

/-- The decision is taken when the line is due, still RINGING under AUTOMATIC, and the caller window is CLOSED (R9). -/
def decideIfDue (l : LineId) (s : State) : State :=
  let r := s.lc.get l
  if r.state = .ringing ∧ r.controller = .automatic ∧ r.due = true ∧ r.window = .closed then answerDecision l s else s

/-! ## Classification (R12) -/

/-- The call turns to FAX (R12). -/
def turnToFax (l : LineId) (s : State) : State :=
  let s := leaveClassified l s
  if s.store.takesFax then handOn l .fax (startReceiver l) (s.updLc l fun r => { r with purpose := .fax }) else noteAndClear l s

/-- The call turns to DATA, or is cleared with outcome DATA-REFUSED where the computer cannot take it (R12). -/
def turnToData (l : LineId) (s : State) : State :=
  let s := leaveClassified l s
  if canTakeData s then handOn l .data (startLink l .answerer) (s.updLc l fun r => { r with purpose := .data })
  else noteAndClear l (refuseLink s)

/-- The line is being classified. -/
def classifying (l : LineId) (s : State) : Bool :=
  (s.lc.get l).state == .voice && (s.vm.session.get l).classification

/-- A silence frame of a recording has ended (R97): in the classification period 3000 ms of silence turn the call to FAX and the
first non-silent frame ends the period (R12); otherwise the silence stop applies (Table 6-3). -/
def frameEnds (c : CtxId) (s : State) : State :=
  let v := s.vp.get c
  let silent := decide (v.frameSum / 192 < v.settings.threshold)
  let run := if silent then min 65535 (v.silenceRun + 1) else 0
  let start := if silent ∧ v.silenceRun = 0 then v.lineCount - 192 else v.runStart
  let s := s.updCtx c fun v => { v with frameSum := 0, frameCount := 0, silenceRun := run, runStart := start }
  let classified := match lineOfCtx c with | some l => classifying l s | none => false
  match lineOfCtx c, classified with
  | some l, true =>
    if !silent then s.updSession l fun r => { r with classification := false }
    else if 3000 ≤ run * 20 then turnToFax l s
    else s
  | _, _ => if v.silenceTime ≤ run * 20 then recordingStops c .silence start s else s

/-! ## Dialling (R47 to R50) -/

/-- The hook relay of a dial's breaks and flashes: loop-break timing is off while it is released and starts afresh after (R50). -/
def setRelay (l : LineId) (on : Bool) (s : State) : State :=
  s.updLc l fun r => { r with hook := on, loopBreak := on && !(s.pins.loop.get l) }

/-- Update a line's dial record. -/
def updDial (l : LineId) (f : DialRec → DialRec) (s : State) : State := s.updDq l fun d => { d with record := f d.record }

/-- Set what a dial waits for. -/
def setDialStep (l : LineId) (st : DialStep) (s : State) : State := s.updDq l fun d => { d with step := st }

/-- The string has been sent: AWAITING, and call progress (R47, R52). -/
def startAwaiting (l : LineId) (s : State) : State :=
  let s := (updDial l (fun d => { d with phase := .awaiting }) s).updDq l fun d => { d with step := .none, silence := false }
  moveLine l .awaiting s

/-- The breaks of a digit: digit 0 has 10 (R50). -/
def breaksOf (d : Fin 10) : Nat := if d.val = 0 then 10 else d.val

/-- Send a keypad tone: dial tone seen becomes no (R48, R49). -/
def dialKey (l : LineId) (k : Key) (s : State) : State :=
  startTone l (.keypad k) (setDialStep l .tone (updDial l (fun d => { d with toneSeen := false }) s))

/-- Begin the symbol at the position; symbols that end at once are passed by. `fuel` bounds them (R47 to R50). -/
def dialNext (l : LineId) : Nat → State → State
  | 0, s => s
  | k + 1, s =>
    let d := (s.dq.get l).record
    match d.string[d.position]? with
    | none => startAwaiting l s
    | some (.key (.digit n)) =>
      if d.pulse then
        setRelay l false (setDialStep l (.pulseBreak (breaksOf n)) (updDial l (fun d => { d with toneSeen := false }) s))
      else dialKey l (.digit n) s
    | some (.key x) => dialKey l x s
    | some .comma => setDialStep l .pause s
    | some .wait =>
      if d.toneSeen then dialNext l k (updDial l (fun d => { d with position := d.position + 1 }) s)
      else setDialStep l (.dialTone false) s
    | some .flash => setRelay l false (setDialStep l .flash (updDial l (fun d => { d with toneSeen := false }) s))
    | some .toneMode => dialNext l k (updDial l (fun d => { d with position := d.position + 1, pulse := false }) s)
    | some .pulseMode => dialNext l k (updDial l (fun d => { d with position := d.position + 1, pulse := true }) s)

/-- A symbol has ended: the position increases by 1 and the next begins (R47). -/
def symbolEnds (l : LineId) (s : State) : State :=
  dialNext l 41 (updDial l (fun d => { d with position := d.position + 1 }) s)

/-! ## The end of a dial (R53, R60) -/

/-- What an answered queued call becomes: IN-CALL, with its outcome recorded (Table 3-6). -/
def entryAnswered (n : Fin 8) (o : DialOutcome) (s : State) : State :=
  changeEntry n (fun e => { e with state := .inCall, outcome := some (.dial o) }) s

/-- A queued dial that was not answered, or whose answer was all it was for (Table 3-6). DESIGN CHOICE, unsafe (log 55): LINE-IN-USE
leaves an entry WAITING with its handle on a message that is DELETE-PENDING too. -/
def entryDialEnded (n : Fin 8) (o : DialOutcome) (s : State) : State :=
  if s.queue[n].state ≠ .dialling then s
  else if s.queue[n].purpose = .ringOnly ∧ (o = .answeredTone ∨ o = .answeredVoice ∨ o = .noAnswer) then
    doneEntry n (some (.dial o)) s
  else match o with
    | .lineInUse => changeEntry n (fun e => { e with state := .waiting, line := none, outcome := some (.dial o) }) s
    | .cancelled => cancelEntry n s
    | .dataRefused =>
      changeEntry n (fun e => { e with state := .waiting, line := none, outcome := some .dataRefused,
                                       earliest := s.queueTime + 60 * e.interval }) s
    | _ => countedFailure n (.dial o) s

/-- The dial record at the end of a dial (R45). -/
def closeDial (l : LineId) (o : DialOutcome) (s : State) : State :=
  s.updDq l fun d =>
    { record := { d.record with owner := none, phase := .idle, outcome := some o }, step := .none, silence := false }

/-- Hand a dial's outcome to the queue entry that owns it. -/
def tellOwner (w : Option DialOwner) (o : DialOutcome) (s : State) : State :=
  match w with
  | some (.entry n) => entryDialEnded n o s
  | _ => s

/-- A dial ends with an outcome that clears the line (R53). -/
def failDial (l : LineId) (o : DialOutcome) (s : State) : State :=
  let w := (s.dq.get l).record.owner
  tellOwner w o (blockClear l (closeDial l o s))

/-- The dial of a line that has cleared (R52): NO-CARRIER after a loop break, CANCELLED otherwise. -/
def dialCleared (l : LineId) (loopBreak : Bool) (s : State) : State :=
  let w := (s.dq.get l).record.owner
  let o : DialOutcome := if loopBreak then .noCarrier else .cancelled
  tellOwner w o (closeDial l o s)

/-- The owner of an answered dial: its entry is IN-CALL. -/
def answerOwner (w : Option DialOwner) (o : DialOutcome) (s : State) : State :=
  match w with
  | some (.entry n) => entryAnswered n o s
  | _ => s

/-- An answered dial (R53): the line enters the state of the purpose with the block serving it. A block whose channel is bound already
refuses the call (R133, R148, R174, log 59). -/
def dialAnswered (l : LineId) (o : DialOutcome) (s : State) : State :=
  let d := (s.dq.get l).record
  match d.purpose with
  | .ringOnly => failDial l o s
  | .data =>
    if canTakeData s then
      let t := moveLine l .data (answerOwner d.owner o (closeDial l o s))
      (startLink l .caller (t.updLc l fun r => { r with purpose := .data })).getD (failDial l .dataRefused (refuseLink s))
    else failDial l .dataRefused (refuseLink s)
  | .fax =>
    let t := moveLine l .fax (answerOwner d.owner o (closeDial l o s))
    (match d.owner with
     | some (.entry n) => (startSender l n t).getD (failDial l o s)
     | _ => t)
  | .voice =>
    let s := moveLine l .voice (answerOwner d.owner o (closeDial l o s))
    (match d.owner with
     | some (.entry n) => openDelivery l n s
     | _ => setMode l .quiet s)

/-- A dial begins (R47, R51): with the EXT input off hook it ends at once with LINE-IN-USE. -/
def beginDial (l : LineId) (w : DialOwner) (str : List DialSym) (p : DialPurpose) (limit : Nat) (blind : Bool) (s : State) : State :=
  let s := s.updDq l fun d =>
    { record := { owner := some w, phase := .dialling, string := str, position := 0, pulse := false, toneSeen := false,
                  ringbacks := 0, limit := limit, purpose := p, outcome := d.record.outcome },
      step := .none, silence := false }
  let s := setMode l .tones (moveLine l .dialling s)
  if s.pins.ext.get l then failDial l .lineInUse s
  else if blind then dialNext l 41 s
  else setDialStep l (.dialTone true) s

/-- A cadence class reaches the dialler (R48, R52). -/
def dialCadence (l : LineId) (c : CadenceClass) (s : State) : State :=
  let d := s.dq.get l
  match d.record.phase with
  | .idle => s
  | .dialling =>
    if c = .dial then
      let s := updDial l (fun d => { d with toneSeen := true }) s
      match d.step with
      | .dialTone true => dialNext l 41 s
      | .dialTone false => symbolEnds l s
      | _ => s
    else s
  | .awaiting =>
    match c with
    | .busy => failDial l .busy s
    | .congestion => failDial l .congestion s
    | .ringback =>
      let k := min 255 (d.record.ringbacks + 1)
      let s := updDial l (fun d => { d with ringbacks := k }) s
      if d.record.limit < k then failDial l .noAnswer s else s
    | _ => s

/-! ## Clearing and releasing (R13, R18, R19, R16) -/

/-- The line is cleared from outside its serving block: a loop break, a hang-up, a release, CANCEL CALL (R13). The block serving
the call is told. -/
def clearLine (l : LineId) (loopBreak : Bool) (s : State) : State :=
  let st := (s.lc.get l).state
  let s := lineToClearing l s
  match st with
  | .dialling => dialCleared l loopBreak s
  | .awaiting => dialCleared l loopBreak s
  | .voice => voiceCleared l loopBreak s
  | .fax => faxCleared l loopBreak s
  | .data => linkCleared l loopBreak s
  | _ => s

/-- A port's release of a line (R18). -/
def releaseLine (l : LineId) (s : State) : State :=
  if (s.lc.get l).state.offHook then setController l .none (clearLine l false s)
  else setController l (if (s.lc.get l).state = .ringing then .automatic else .none) s

/-- A line in RINGING returns to IDLE or another on-hook state: the ringing ends and an AUTOMATIC controller returns to NONE
(R4, R5, R7). -/
def leaveRinging (l : LineId) (st : LineState) (s : State) : State :=
  let s := endRinging l s
  let s := if (s.lc.get l).controller = .automatic then setController l .none s else s
  moveLine l st s

/-- The caller has given up (R7): the window closes, and a call note is asked for where the caller is known or all rings are noted. -/
def ringingGone (l : LineId) (st : LineState) (s : State) : State :=
  let s := closeWindow l s
  let s := leaveRinging l st s
  if (s.lc.get l).caller.isSome ∨ (s.lc.get l).policy.noteAll then askCallNote l s else s

/-- An intercept (R19): the Voice Message Controller stops, and the line goes straight to EXTENSION. -/
def intercept (l : LineId) (s : State) : State :=
  let s := stopSession l .intercept 0 s
  let s := deliveryDone l s
  let s := s.updLc l fun r => { r with purpose := .none, entryRef := none }
  moveLine l .extension (setController l .none s)

/-- A take-over (R16): the work stops, and the line stays in VOICE under the port. -/
def takeOver (l : LineId) (p : PortId) (s : State) : State :=
  let s := stopSession l .taken 0 s
  let s := deliveryDone l s
  let s := s.updLc l fun r => { r with entryRef := none }
  moveLine l .voice (setMode l .quiet (setController l (.port p) s))

/-! ## Dispatch (R20, R57, R58) -/

/-- Whether the line is within the preference. -/
def prefers (p : LinePref) (l : LineId) : Bool :=
  match p, l with
  | .either, _ => true
  | .line0, .line0 => true
  | .line1, .line1 => true
  | _, _ => false

/-- The line is free for queued calls (R20, R57). -/
def lineFree (l : LineId) (s : State) : Bool :=
  let r := s.lc.get l
  r.state == .idle && r.controller == .none && (s.dq.get l).record.phase == .idle && r.policy.outgoing && !r.ringWait

/-- The entry is due (R57). -/
def entryDue (n : Fin 8) (s : State) : Bool :=
  s.queue[n].state == .waiting && decide (s.queue[n].earliest ≤ s.queueTime) &&
    (if s.queue[n].purpose = .data then canTakeData s else true)

/-- Dispatch order: the earliest start, then the creation order (R57). -/
def goesBefore (s : State) (a b : Fin 8) : Bool :=
  let x := s.queue[a]
  let y := s.queue[b]
  decide (x.earliest < y.earliest ∨ (x.earliest = y.earliest ∧ x.order ≤ y.order))

/-- Insert an entry in dispatch order. -/
def insertDue (s : State) (n : Fin 8) : List (Fin 8) → List (Fin 8)
  | [] => [n]
  | m :: ms => if goesBefore s n m then n :: m :: ms else m :: insertDue s n ms

/-- The due entries in dispatch order. -/
def dueEntries (s : State) : List (Fin 8) := ((allEntries.filter fun n => entryDue n s).foldr (insertDue s) [])

/-- The purpose of the line and of the dial for a queued call (R20, R58). -/
def purposesOf : QueuePurpose → Purpose × DialPurpose
  | .faxSend => (.fax, .fax)
  | .data => (.data, .data)
  | .voiceDeliver => (.voice, .voice)
  | .ringOnly => (.voice, .ringOnly)

/-- The seizure request is accepted (R20) and the dial begins (R58). -/
def seizeFor (n : Fin 8) (l : LineId) (s : State) : State :=
  let e := s.queue[n]
  let pp := purposesOf e.purpose
  let s := setController l .automatic s
  let s := setCaller l none (s.updLc l fun r => { r with purpose := pp.1, entryRef := some n })
  let s := moveLine l .seized s
  let s := changeEntry n (fun e => { e with state := .dialling, line := some l }) s
  let s := onStore (Store.seek (.entry n) 0) s
  beginDial l (.entry n) e.string pp.2 e.ringLimit e.blind s

/-- Offer a due entry the free line it may use, line 0 first (R57). -/
def offerEntry (n : Fin 8) (s : State) : State :=
  if !entryDue n s then s
  else if prefers s.queue[n].pref .line0 && lineFree .line0 s then seizeFor n .line0 s
  else if prefers s.queue[n].pref .line1 && lineFree .line1 s then seizeFor n .line1 s
  else s

/-- Dispatch is looked at (R57): due entries in dispatch order, each offered a free line. -/
def dispatch (s : State) : State := forEach offerEntry (dueEntries s) s

/-! ## A port leaves READY (R200) -/

/-- A stream of a departing port (R197): handle-bound streams and finished ones return to UNBOUND; while the link exists its streams
stay bound with nothing in them (R195). -/
def leaveStreams (p : PortId) (s : State) : State :=
  let s := if (s.st.get p).inb.binding = some .link ∧ (s.st.get p).inb.state = .active ∧ s.cl.state ≠ .ended then
      s.updIn p fun i => { i with slots := [], credit := i.credit + i.slots.length } else unbindIn p s
  if (s.st.get p).outb.binding = some .link ∧ (s.st.get p).outb.state = .active ∧ s.cl.state ≠ .ended then
    s.updOut p fun o => { o with buffer := [] } else unbindOut p s

/-- Release a line if the port controls it (R18). -/
def releaseIfHeld (p : PortId) (l : LineId) (s : State) : State :=
  if (s.lc.get l).controller = .port p then releaseLine l s else s

/-- A port leaves READY for a state (R200): streams and handles, lines, LOCAL, the link if it is the CP, and its flags. Its queues
are set by the cause. -/
def portLeaves (p : PortId) (st : PortState) (s : State) : State :=
  let s := s.updPc p fun c => { c with state := st }
  let s := onStore (Store.closeHandles (portHolders p)) (leaveStreams p s)
  let s := forEach (releaseIfHeld p) allLines s
  let s := if s.vm.localPort = some p then stopLocal s else s
  let s := if p = .cp ∧ s.cl.state ≠ .ended then closeLink (s.updCw fun w => { w with departed := true }) else s
  let s := forEach (clearChanges p) allLines s
  s.updPc p fun _ => { PortCtl.fresh false with state := st }

end Sys2Proof.Machine
end

