-- ==== Sys2Proof/Machine/ArbiterOps.lean ====
section
/-! DEFINITION. The memory arbiter and the bursts of its clients (spec 04 R87, R88; 10 R192, R193), and the parser of a FAX-OUT write
(08 R166). -/

namespace Sys2Proof.Machine

/-! ## The parser of a FAX-OUT write (R166, Table 11-6) -/

/-- The resolution octet of a page section header. -/
def resolutionOctet (b : Byte) : Option Resolution :=
  if b = 0x00 then some .standard else if b = 0x01 then some .fine else none

/-- A complete page section header: its page entry is asked for, at the byte after the header; none where the section is malformed.
DESIGN CHOICE, unsafe (log 62): the document's present length is the bytes parsed, those not yet in the DRAM among them. -/
def openSection (n : Fin 128) (start : Nat) (hdr : List Byte) (st : Store) : Option (FaxParser × Store) :=
  let count := leNat ((hdr.drop 1).take 2)
  let bytes := leNat ((hdr.drop 3).take 3)
  match resolutionOctet ((hdr.head?).getD 0) with
  | none => none
  | some r =>
    if count = 0 ∨ bytes = 0 then none
    else (st.newPage n r start).map fun x => (.lines x.1 bytes count 0 false count bytes, x.2)

/-- One octet of a section's lines; none where the section is malformed. A section that ends fixes its page. -/
def sectionOctet (b : Byte) (k : Fin 256) (left linesLeft inLine : Nat) (lastZero : Bool) (total bytes : Nat) (st : Store) :
    Option (FaxParser × Store) :=
  let ends := lastZero && b == 0x80
  if (!ends && decide (434 ≤ inLine + 1)) || (ends && decide (linesLeft = 0 ∨ 434 < inLine + 1)) then none
  else
    let rest := if ends then linesLeft - 1 else linesLeft
    if 1 < left then
      some (.lines k (left - 1) rest (if ends then 0 else inLine + 1) (!ends && b == 0x00) total bytes, st)
    else if ends ∧ rest = 0 then
      some (.header [], st.updPage k fun p => { p with byteLength := bytes, committedLines := total, verdict := .good })
    else none

/-- One octet of a FAX-OUT write at byte `at` of the content. -/
def parseOctet (n : Fin 128) (pos : Nat) (b : Byte) (q : FaxParser) (st : Store) : Option (FaxParser × Store) :=
  match q with
  | .header got =>
    if (got ++ [b]).length < 6 then some (.header (got ++ [b]), st) else openSection n (pos + 1) (got ++ [b]) st
  | .lines k left ll il z t y => sectionOctet b k left ll il z t y st

/-- The octets of a chunk, one after another. -/
def parseOctets (n : Fin 128) : Nat → List Byte → FaxParser → Store → Option (FaxParser × Store)
  | _, [], q, st => some (q, st)
  | pos, b :: bs, q, st =>
    match parseOctet n pos b q st with
    | none => none
    | some r => parseOctets n (pos + 1) bs r.1 r.2

/-- The Fax Controller parses the bytes that arrive for a FAX-OUT write; a malformed section halts the stream (R166). -/
def parseChunk (p : PortId) (bs : List Byte) (s : State) : State :=
  match inHandle p s with
  | none => s
  | some h =>
    if s.store.dir[h.entry].kind = .faxOut then
      match parseOctets h.entry (s.st.get p).inb.parsed bs (s.st.get p).inb.parser s.store with
      | none => haltIn p .badFormat s
      | some r =>
        (onStore (fun _ => r.2) s).updIn p fun i => { i with parser := r.1, parsed := i.parsed + bs.length }
    else s

/-! ## Inbound streams (R192) -/

/-- The bytes waiting in an inbound buffer. -/
def InStream.waiting (i : InStream) : Nat := (i.slots.map List.length).sum

/-- The bytes that complete the present burst. -/
def InStream.need (i : InStream) : Nat := Config.burstBytes - i.written % Config.burstBytes

/-- A burst is requested: the buffer holds its bytes, or fewer with every slot occupied or end seen (R192). -/
def InStream.wantsBurst (i : InStream) : Bool :=
  decide (i.need ≤ i.waiting ∨ (0 < i.waiting ∧ (i.slots.length = 8 ∨ i.endSeen = true)))

/-- An inbound stream has a burst pending. -/
def inPending (p : PortId) (s : State) : Bool := (inHandle p s).isSome && (s.st.get p).inb.wantsBurst

/-- A store block is asked for when its first byte is to be written; a refusal halts the stream (R71, R192). -/
def askBlock (p : PortId) (s : State) : State :=
  match inHandle p s with
  | none => s
  | some h =>
    if inPending p s ∧ s.store.dir[h.entry].blocks.length ≤ (s.st.get p).inb.written / Config.blockBytes then
      match s.store.allocateUnbound h.entry with
      | none => haltIn p .storeFull s
      | some st => onStore (fun _ => st) s
    else s

/-- The last block of an entry with the sample count of its header. -/
def setLastCount (k : Nat) (bs : List BlockRef) : List BlockRef :=
  bs.dropLast ++ (bs.getLast?.toList.map fun b => { b with samples := k })

/-- A voice block of a port write is complete: its header is checked and its samples are committed (R75, R208). -/
def commitVoiceBlock (p : PortId) (n : Fin 128) (s : State) : State :=
  let e := s.store.dir[n]
  let hdr := match e.blocks.getLast? with
    | some b => memReadBytes (b.num * Config.blockBytes) 8 s.store.dram
    | none => []
  if headerOk (e.format.getD ⟨.q4, .r8000, none⟩) hdr then
    s.updStore fun st => st.updDir n fun d =>
      { d with blocks := setLastCount (headerCount hdr) d.blocks, length := d.length + headerCount hdr,
               committed := d.committed + headerCount hdr }
  else haltIn p .badFormat s

/-- What a burst of a port write commits: a fax grows by its bytes and commits whole blocks, a voice entry whole blocks (R75). -/
def commitPortWrite (p : PortId) (n : Fin 128) (w : Nat) (s : State) : State :=
  if s.store.dir[n].kind.isVoice then (if w % Config.blockBytes = 0 then commitVoiceBlock p n s else s)
  else s.updStore fun st => st.setLength n w (if w % Config.blockBytes = 0 then w else st.dir[n].committed)

/-- A burst of an inbound stream ends: its bytes are in the DRAM, and the slots emptied are granted again (R192). A burst whose client
no longer needs it has no effect (R87). -/
def inBurst (p : PortId) (s : State) : State :=
  if inPending p s = false then s
  else match inHandle p s with
  | none => s
  | some h =>
    let i := (s.st.get p).inb
    let r := takeBytes i.need i.slots
    let w := i.written + r.1.length
    let s := s.updStore fun st => { st with dram := writeContent st.dir[h.entry].blocks i.written r.1 st.dram }
    let s := s.updIn p fun i => { i with slots := r.2.1, credit := i.credit + r.2.2, written := w }
    commitPortWrite p h.entry w (grant p r.2.2 s)

/-- The write a port has ended is malformed: a voice kind not in whole blocks, a FAX-OUT with no complete page section (R192). -/
def writeMalformed (p : PortId) (n : Fin 128) (s : State) : Bool :=
  let i := (s.st.get p).inb
  let e := s.store.dir[n]
  if e.kind.isVoice then decide (i.written % Config.blockBytes ≠ 0)
  else decide (e.pageList = [] ∨ i.parser ≠ .header [])

/-- The write ends when the end mark has been seen and the buffer is empty (R192). -/
def writeEnds (p : PortId) (s : State) : State :=
  match inHandle p s with
  | none => s
  | some h =>
    if (s.st.get p).inb.endSeen ∧ (s.st.get p).inb.slots = [] then
      (if writeMalformed p h.entry s then haltIn p .badFormat s
       else changeIn p (fun i => { i with state := .finished, binding := none }) (completeWrite h.entry none s))
    else s

/-! ## Outbound streams (R193, R194) -/

/-- The bytes a burst of an outbound stream brings of a fax entry: to the committed length and the end of the store block
(log 39). -/
def outTake (e : DirEntry) (pos : Nat) : Nat :=
  min (min Config.burstBytes (e.committed - pos)) (Config.blockBytes - pos % Config.blockBytes)

/-- An outbound stream has a burst pending: room for 64 bytes, and content below the committed length (R193). -/
def outPending (p : PortId) (s : State) : Bool :=
  match outHandle p s with
  | none => false
  | some h =>
    (s.st.get p).outb.state == .active && decide ((s.st.get p).outb.buffer.length + Config.burstBytes ≤ 512) &&
      decide (h.pos < s.store.dir[h.entry].committed)

/-- A burst of an outbound stream ends (R193): bytes of a fax entry, or the next 64 bytes of a voice block, whose last burst moves
the position past it. DESIGN CHOICE, unsafe (log 63): a voice block of no samples lies at no position, so its bytes are not brought. -/
def outBurst (p : PortId) (s : State) : State :=
  if outPending p s = false then s
  else match outHandle p s with
    | none => s
    | some h =>
      let e := s.store.dir[h.entry]
      if e.kind.isVoice then
        match blockAt e.blocks 0 0 h.pos with
        | none => s
        | some b =>
          let k := (s.st.get p).outb.bursts
          let bs := memReadBytes (b.2.num * Config.blockBytes + k * Config.burstBytes) Config.burstBytes s.store.dram
          let s := s.updOut p fun o => { o with buffer := o.buffer ++ bs, bursts := if k + 1 < 8 then k + 1 else 0 }
          if k + 1 < 8 then s else onStore (Store.moveHandle h.holder (h.pos + b.2.samples)) s
      else
        let bs := readContent e.blocks h.pos (outTake e h.pos) s.store.dram
        onStore (Store.moveHandle h.holder (h.pos + bs.length)) (s.updOut p fun o => { o with buffer := o.buffer ++ bs })

/-- A stream that reads an entry in WRITING waits at its committed length (R76, R193). -/
def streamWaits (p : PortId) (s : State) : State :=
  match outHandle p s with
  | none => s
  | some h =>
    let e := s.store.dir[h.entry]
    if (s.st.get p).outb.state = .active ∧ e.state = .writing ∧ e.committed ≤ h.pos then
      changeOut p (fun o => { o with state := .waiting }) s
    else s

/-- The end of an entry has been reached with an empty buffer: the end mark is sent and the stream is FINISHED (R194). The end is the
length of an entry that has completed, deleted since or not (R76). -/
def streamEnds (p : PortId) (s : State) : State :=
  match outHandle p s with
  | none => s
  | some h =>
    let e := s.store.dir[h.entry]
    if (s.st.get p).outb.state = .active ∧ (s.st.get p).outb.buffer = [] ∧
        (e.state = .complete ∨ (e.state = .deletePending ∧ e.completed)) ∧ e.length ≤ h.pos then
      changeOut p (fun o => { o with state := .finished })
        (s.updPc p fun c => { c with dataOut := c.dataOut ++ [⟨[], true⟩] })
    else s

/-! ## The arbiter (R87) -/

/-- The line-side clients in rotation order. -/
def lineClients : List LineClient := [.voice .l0, .voice .l1, .voice .loc, .fax .line0, .fax .line1]

/-- The stream clients in rotation order. -/
def streamClients : List StreamClient := [⟨.cp, .inbound⟩, ⟨.cp, .outbound⟩, ⟨.pp, .inbound⟩, ⟨.pp, .outbound⟩]

/-- The rotation that starts with the client after `a`. -/
def rotation {α : Type} [DecidableEq α] (a : α) (l : List α) : List α :=
  (l.dropWhile (fun x => x ≠ a)).tail ++ l.takeWhile (fun x => x ≠ a) ++ (if a ∈ l then [a] else [])

/-- A voice context has a burst pending: its other buffer is in transfer. -/
def voicePending (c : CtxId) (s : State) : Bool :=
  (s.vp.get c).other.block.isSome && decide ((s.vp.get c).other.served < 8)

/-- A line-side client has a burst pending. -/
def linePending (s : State) : LineClient → Bool
  | .voice c => voicePending c s
  | .fax l => faxPending l s

/-- A stream client has a burst pending. -/
def streamPending (s : State) (c : StreamClient) : Bool :=
  match c.dir with
  | .inbound => inPending c.port s
  | .outbound => outPending c.port s

/-- The next burst (R87): refresh, then line-side clients, then streams, each class in rotation. In standby only refresh runs. -/
def nextService (s : State) : Option Service :=
  if s.arb.refresh then some .refresh
  else if s.standby then none
  else match (rotation s.arb.lastLine lineClients).find? (linePending s) with
    | some c => some (.line c)
    | none => ((rotation s.arb.lastStream streamClients).find? (streamPending s)).map .stream

/-- The arbiter with a burst begun. -/
def Arbiter.begin (v : Service) (a : Arbiter) : Arbiter :=
  match v with
  | .refresh => { a with refresh := false, current := some .refresh }
  | .line c => { a with current := some (.line c), lastLine := c }
  | .stream c => { a with current := some (.stream c), lastStream := c }

/-- Note in a client's record whether the burst in progress serves what it does now (R87). A new operation of the client starts with
the mark clear, so a burst begun for an earlier one is finished without effect. -/
def markBurst (v : Service) (on : Bool) (s : State) : State :=
  match v with
  | .refresh => s
  | .line (.voice c) => s.updCtx c fun x => { x with burst := on }
  | .line (.fax l) => s.updFw l fun w => { w with burst := on }
  | .stream ⟨p, .inbound⟩ => s.updIn p fun i => { i with burst := on }
  | .stream ⟨p, .outbound⟩ => s.updOut p fun o => { o with burst := on }

/-- The burst in progress still serves its client. -/
def burstServes (v : Service) (s : State) : Bool :=
  match v with
  | .refresh => true
  | .line (.voice c) => (s.vp.get c).burst
  | .line (.fax l) => (s.fw.get l).burst
  | .stream ⟨p, .inbound⟩ => (s.st.get p).inb.burst
  | .stream ⟨p, .outbound⟩ => (s.st.get p).outb.burst

/-- With no burst in progress, the arbiter begins the next. -/
def kick (s : State) : State :=
  if s.arb.current.isSome then s
  else match nextService s with
    | some v => markBurst v true { s with arb := s.arb.begin v }
    | none => s

/-- The store block a burst reads or writes. -/
def burstBlock (s : State) : Service → Option Nat
  | .refresh => none
  | .line (.voice c) => (s.vp.get c).other.block
  | .line (.fax l) =>
    (match (s.fx.get l).role, (s.fx.get l).document with
     | .receiver, some n =>
       let w := s.fw.get l
       let off := if w.unwritten ≠ [] then writtenTo l n s else match w.frameWrites with | x :: _ => x.1 | [] => 0
       (s.store.dir[n].blocks[off / Config.blockBytes]?).map (·.num)
     | .sender, some n => (s.store.dir[n].blocks[(s.fw.get l).txNext / Config.blockBytes]?).map (·.num)
     | _, _ => none)
  | .stream ⟨p, .inbound⟩ =>
    (inHandle p s).bind fun h =>
      (s.store.dir[h.entry].blocks[(s.st.get p).inb.written / Config.blockBytes]?).map (·.num)
  | .stream ⟨p, .outbound⟩ =>
    (outHandle p s).bind fun h =>
      let e := s.store.dir[h.entry]
      if e.kind.isVoice then (blockAt e.blocks 0 0 h.pos).map (·.2.num)
      else (e.blocks[h.pos / Config.blockBytes]?).map (·.num)

/-- A burst of a voice context ends (R87, R88): a recorded block is committed at its eighth burst, and a sample that was waiting for
the buffer turns it; a block brought for a playback that is not under way yet is taken at once (log 12). -/
def voiceBurst (c : CtxId) (s : State) : State :=
  let v := s.vp.get c
  if voicePending c s = false then s
  else match v.activity with
    | .idle => s
    | .recording =>
      let t := serveRecord c 1 s
      if v.other.served + 1 < 8 then t
      else if v.lateDrop.isSome then recordTurn c t
      else t
    | .playing =>
      let bs := match v.other.block with
        | some b => memReadBytes (b * Config.blockBytes + v.other.served * Config.burstBytes) Config.burstBytes s.store.dram
        | none => []
      let t := s.updCtx c fun v =>
        { v with other := { v.other with bytes := v.other.bytes ++ bs, served := v.other.served + 1 } }
      if v.other.served + 1 = 8 ∧ v.primed = false ∧ v.waiting = false then takeBuffer c t else t

/-- The effect of a burst that ends and still serves its client (R87). -/
def burstEffect (v : Service) (s : State) : State :=
  match v with
  | .refresh => s
  | .line (.voice c) => voiceBurst c s
  | .line (.fax l) => faxBurst l s
  | .stream ⟨p, .inbound⟩ => inBurst p s
  | .stream ⟨p, .outbound⟩ => outBurst p s

end Sys2Proof.Machine
end

