-- ==== Sys2Proof/Machine/Settle.lean ====
section
/-! DEFINITION. What follows a command within the same step: the owner of a Frame Channel acts on its reports and records (spec 07 R136,
R143), a line takes or leaves the LOCAL speaker (06 R120), the streams look at their ends (10 R192 to R194), the queue is looked
at (03 R57) and the arbiter begins a burst (04 R87). -/

namespace Sys2Proof.Machine

/-! ## The Frame Channel's owner -/

/-- Remove the head of a channel's reports. -/
def dropReport (l : LineId) (s : State) : State := s.updFc l fun c => { c with reports := c.reports.tail }

/-- Remove the head of a channel's receive queue. -/
def dropRecord (l : LineId) (s : State) : State := s.updFc l fun c => { c with rxQueue := c.rxQueue.tail }

/-- The owner of a channel acts on its reports, then on its records in order; `fuel` bounds them (R136, R143). The link leaves a
record it has no room for, and what follows it, in the queue (R173). -/
def drainLine (l : LineId) : Nat → State → State
  | 0, s => s
  | k + 1, s =>
    let c := s.fc.get l
    match c.owner with
    | .none => s
    | .fx =>
      (match c.reports, c.rxQueue with
       | r :: _, _ => drainLine l k (faxReport l r (dropReport l s))
       | [], r :: _ => drainLine l k (faxRecord l r (dropRecord l s))
       | [], [] => pumpFrames l 4 s)
    | .cl =>
      (match c.reports, c.rxQueue with
       | r :: _, _ => drainLine l k (linkReport r (dropReport l s))
       | [], r :: _ => if linkCanTake r s then drainLine l k (linkRecord r (dropRecord l s)) else linkWork s
       | [], [] => linkWork s)

/-! ## The LOCAL speaker (R120) -/

/-- When a line began to qualify for screening, if it qualifies. -/
def screens (l : LineId) (s : State) : Option Nat :=
  if (s.vp.get (ctxOf l)).settings.screening then (s.vm.session.get l).qualified else none

/-- The line that takes a free holder: the first to have entered a qualifying phase, line 0 if both together. -/
def screenChoice (s : State) : Option LineId :=
  match screens .line0 s, screens .line1 s with
  | some a, some b => if b < a then some .line1 else some .line0
  | some _, none => some .line0
  | none, some _ => some .line1
  | none, none => none

/-- The holder after a line has stopped qualifying. -/
def keptHolder (s : State) : Speaker :=
  match s.vm.holder with
  | .screen l => if (screens l s).isSome then .screen l else .none
  | h => h

/-- A SCREEN holder is released when its line stops qualifying, and a free holder goes to a line that qualifies (R120). -/
def lookScreen (s : State) : State :=
  match keptHolder s, screenChoice s with
  | .none, some l => s.updVm fun v => { v with holder := .screen l }
  | h, _ => s.updVm fun v => { v with holder := h }

/-! ## Streams -/

/-- What a port's streams do whenever they can: ask for a block, end a write, wait, send the end mark. -/
def lookStreams (p : PortId) (s : State) : State := streamEnds p (streamWaits p (writeEnds p (askBlock p s)))

/-! ## Playbacks -/

/-- A playback's next block goes into transfer as soon as it is committed, while the present buffer still plays (R88, R105). -/
def lookPlayback (c : CtxId) (s : State) : State := if (s.vp.get c).activity = .playing then fetchNext c s else s

/-! ## Dispatch (R57) -/

/-- What a look at dispatch depends on. -/
structure DispatchKey where
  free : PerLine Bool
  waiting : List (Bool × Nat)
  computer : Bool
deriving DecidableEq, Repr

/-- The present key. -/
def dispatchKey (s : State) : DispatchKey :=
  { free := ⟨lineFree .line0 s, lineFree .line1 s⟩,
    waiting := s.queue.toList.map fun e => (e.state == .waiting, e.earliest), computer := canTakeData s }

/-- Dispatch is looked at when what it depends on has changed (R57). -/
def lookDispatch (old s : State) : State := if dispatchKey old = dispatchKey s then s else dispatch s

/-! ## Everything that follows -/

/-- The looks that follow a command, given the state before it. -/
def settle (old s : State) : State :=
  let s := drainLine .line1 16 (drainLine .line0 16 s)
  let s := forEach lookPlayback allCtxs (lookStreams .pp (lookStreams .cp s))
  kick (lookDispatch old (lookScreen s))

/-- Carry out a change and all that follows it. -/
def follow (f : State → State) (s : State) : State := settle s (f s)

/-- Carry out an event, and all that follows it, unless the part is in standby (R27). -/
def event (f : State → State) (s : State) : State := if s.standby then s else follow f s

/-- Take a master's command, carry it out, and all that follows it (R202). -/
def command (h : CmdHead) (c : Command) (body : State → State × Result × ReplyBody) (s : State) : State :=
  event (carryOut h c body) s

end Sys2Proof.Machine
end

