-- ==== Sys2Proof/Machine/Lines.lean ====
section
/-! DEFINITION. The line events and the Line Controller's commands (spec 01). -/

namespace Sys2Proof.Machine

/-! ## Checks -/

/-- The controller rule of R17: none where the port controls the line, else the refusal. -/
def holdCheck (p : PortId) (l : LineId) (s : State) : Option Result :=
  if (s.lc.get l).controller = .port p then none
  else if (s.lc.get l).controller = .port (otherPort p) then some .lineHeld
  else some .wrongState

/-- A command on a line: BAD-ARGUMENT for a line number other than 0 or 1 (R3). -/
def onLine (line : Nat) (body : LineId → State → State × Result × ReplyBody) (s : State) : State × Result × ReplyBody :=
  match lineOfNat line with
  | none => (s, justCode .badArgument)
  | some l => body l s

/-- A command of the controlling port on a line (R3, R17). -/
def onHeldLine (p : PortId) (line : Nat) (body : LineId → State → State × Result × ReplyBody) (s : State) :
    State × Result × ReplyBody :=
  onLine line (fun l s => match holdCheck p l s with | some r => (s, justCode r) | none => body l s) s

/-! ## Ringing (R6 to R9) -/

/-- The answer count of a call (R8). -/
def answerCount (l : LineId) (s : State) : Nat :=
  let p := (s.lc.get l).policy
  if p.tollSaver ∧ s.store.newCounts.sum = 0 then p.ringCount + 2 else p.ringCount

/-- The burst that begins a call in IDLE (R6). -/
def firstBurst (l : LineId) (s : State) : State :=
  let n := answerCount l s
  let s := moveLine l .ringing s
  let s := setCaller l none s
  let s := if (s.lc.get l).controller = .none then setController l .automatic s else s
  addChange l .ring (s.updLc l fun r =>
    { r with ringCount := 1, snapshot := n, window := if r.policy.callerId then .pending else .closed, ringGone := false,
             due := false, decided := false, callerOctets := [], callerFault := false })

/-- A further burst in RINGING (R6, R21): the caller window closes at the second. -/
def nextBurst (l : LineId) (s : State) : State :=
  let s := addChange l .ring (s.updLc l fun r => { r with ringCount := min 255 (r.ringCount + 1), ringGone := false })
  decideIfDue l (closeWindow l s)

/-- RING_BURST_START (R6). -/
def execRingBurstStart (l : LineId) (s : State) : Host.Outcome State Fault Refusal :=
  .next (event (fun s => match (s.lc.get l).state with
    | .idle => firstBurst l s
    | .ringing => nextBurst l s
    | _ => s) s)

/-- A caller window that is PENDING opens at the end of the burst, and the unit is put into CALLER-RX (R21). -/
def openWindow (l : LineId) (s : State) : State :=
  if (s.lc.get l).window = .pending then setMode l .callerRx (s.updLc l fun r => { r with window := .opened }) else s

/-- The line falls due at a burst end under AUTOMATIC at or above the snapshot (R9). -/
def fallDue (l : LineId) (s : State) : State :=
  let r := s.lc.get l
  if r.controller = .automatic ∧ r.decided = false ∧ r.snapshot ≤ r.ringCount then s.updLc l fun r => { r with due := true } else s

/-- Record a ring end (R6). -/
def recordRingEnd (l : LineId) (t : Nat) (s : State) : State :=
  s.updLc l fun r => { r with lastRingEnd := some t, ringWait := true }

/-- RING_BURST_END at time `t` (R6, R9, R21). -/
def execRingBurstEnd (l : LineId) (t : Nat) (s : State) : Host.Outcome State Fault Refusal :=
  .next (event (fun s => match (s.lc.get l).state with
    | .idle => recordRingEnd l t s
    | .extension => recordRingEnd l t s
    | .ringing =>
      let s := (recordRingEnd l t s).updLc l fun r => { r with ringGone := true }
      decideIfDue l (fallDue l (openWindow l s))
    | _ => s) s)

/-- RING_GONE (R7). -/
def execRingGone (l : LineId) (s : State) : Host.Outcome State Fault Refusal :=
  .next (event (fun s =>
    if (s.lc.get l).state = .ringing ∧ (s.lc.get l).ringGone then ringingGone l .idle s else s) s)

/-- RING_WAIT_EXPIRY (R57). -/
def execRingWaitExpiry (l : LineId) (s : State) : Host.Outcome State Fault Refusal :=
  .next (event (fun s => s.updLc l fun r => { r with ringWait := false }) s)

/-! ## Voltage and extension (R4, R5, R13) -/

/-- The fault timer reaches 1000 ms: FAULT from IDLE, EXTENSION or RINGING; remembered in CLEARING (R4, R14). -/
def faultReached (l : LineId) (s : State) : State :=
  let s := s.updLc l fun r => { r with faultTimer := .reached }
  match (s.lc.get l).state with
  | .idle => moveLine l .fault s
  | .extension => moveLine l .fault s
  | .ringing => ringingGone l .fault s
  | _ => s

/-- FAULT_TIMER_EXPIRY (R4). -/
def execFaultTimerExpiry (l : LineId) (s : State) : Host.Outcome State Fault Refusal :=
  .next (event (fun s => if (s.lc.get l).faultTimer = .running then faultReached l s else s) s)

/-- The level of a line's LOOP input. -/
def setLoop (l : LineId) (v : Bool) (s : State) : State := { s with pins := { s.pins with loop := s.pins.loop.set l v } }

/-- The level of a line's EXT input. -/
def setExt (l : LineId) (v : Bool) (s : State) : State := { s with pins := { s.pins with ext := s.pins.ext.set l v } }

/-- LOOP_VOLTAGE_LOSS: on hook the fault timer runs, off hook the loop break is timed, not while the relay is released (R4, R13,
R50). -/
def execLoopVoltageLoss (l : LineId) (s : State) : Host.Outcome State Fault Refusal :=
  .next (event (fun s => s.updLc l fun r =>
    if r.state.offHook then { r with loopBreak := r.hook }
    else { r with faultTimer := if r.faultTimer = .stopped then .running else r.faultTimer }) (setLoop l false s))

/-- Voltage is back: the timers stop, and a line in FAULT leaves it (R4). -/
def loopBack (l : LineId) (s : State) : State :=
  let s := s.updLc l fun r => { r with faultTimer := .stopped, loopBreak := false }
  if (s.lc.get l).state = .fault then moveLine l (if s.pins.ext.get l then .extension else .idle) s else s

/-- LOOP_VOLTAGE_RETURN (R4). -/
def execLoopVoltageReturn (l : LineId) (s : State) : Host.Outcome State Fault Refusal :=
  .next (event (loopBack l) (setLoop l true s))

/-- LOOP_BREAK (R13): the 400 ms are being timed in an off-hook state. -/
def execLoopBreak (l : LineId) (s : State) : Host.Outcome State Fault Refusal :=
  .next (event (fun s =>
    if (s.lc.get l).state.offHook ∧ (s.lc.get l).loopBreak then clearLine l true s else s) s)

/-- What a change of the EXT input does in each state (R5, R14, R19, R51). -/
def extEffect (l : LineId) (off : Bool) (s : State) : State :=
  let r := s.lc.get l
  match r.state, off with
  | .idle, true => moveLine l .extension s
  | .extension, false => moveLine l .idle s
  | .ringing, true => leaveRinging l .extension (closeWindow l s)
  | .dialling, true => failDial l .lineInUse s
  | .voice, true => if r.controller = .automatic ∧ r.policy.extYield then intercept l s else s
  | .clearing, _ => s.updLc l fun r => { r with extRemembered := true }
  | _, _ => s

/-- EXT_CHANGE (R5). -/
def execExtChange (l : LineId) (offHook : Bool) (s : State) : Host.Outcome State Fault Refusal :=
  .next (if s.pins.ext.get l = offHook then s
    else event (fun s => extEffect l offHook (addChange l .extension s)) (setExt l offHook s))

/-- The state a line enters at the end of the clearing guard (R14). -/
def afterGuard (l : LineId) (s : State) : LineState :=
  if (s.lc.get l).faultTimer = .reached then .fault else if s.pins.ext.get l then .extension else .idle

/-- The clearing guard ends (R14). -/
def guardEnd (l : LineId) (s : State) : State :=
  let s := s.updLc l fun r => { r with purpose := .none, entryRef := none, extRemembered := false }
  let s := if (s.lc.get l).controller = .automatic then setController l .none s else s
  moveLine l (afterGuard l s) s

/-- CLEARING_GUARD_END (R14). -/
def execClearingGuardEnd (l : LineId) (s : State) : Host.Outcome State Fault Refusal :=
  .next (event (fun s => if (s.lc.get l).state = .clearing then guardEnd l s else s) s)

/-! ## Caller identity (R21 to R24) -/

/-- CALLER_WINDOW_TIMEOUT (R21). -/
def execCallerWindowTimeout (l : LineId) (s : State) : Host.Outcome State Fault Refusal :=
  .next (event (fun s => if (s.lc.get l).window = .opened then decideIfDue l (closeWindow l s) else s) s)

/-- A caller-identity octet in an open window (R22 to R24). DESIGN CHOICE, unsafe (log 65): the type value and mask are read when the
check octet arrives. -/
def callerOctet (l : LineId) (o : Byte) (fault : Bool) (s : State) : State :=
  let s := s.updLc l fun r => { r with callerOctets := r.callerOctets ++ [o], callerFault := r.callerFault || fault }
  let r := s.lc.get l
  if messageComplete r.callerOctets then
    let rec' := judgeMessage r.policy r.callerFault r.callerOctets
    decideIfDue l (closeWindow l (recordCaller l rec' (s.updLc l fun r => { r with callerOctets := [], callerFault := false })))
  else s

/-- CALLER_OCTET (R22). -/
def execCallerOctet (l : LineId) (octet : Byte) (framingFault : Bool) (s : State) : Host.Outcome State Fault Refusal :=
  .next (event (fun s =>
    if (s.lc.get l).window = .opened ∧ (s.su.get l).mode = .callerRx then callerOctet l octet framingFault s else s) s)

/-! ## Commands -/

/-- The fields of LINE STATUS (R3, R45, R112). -/
def lineView (p : PortId) (l : LineId) (s : State) : LineView :=
  let r := s.lc.get l
  { state := r.state, controller := r.controller, ringCount := r.ringCount, snapshot := r.snapshot, purpose := r.purpose,
    entryRef := r.entryRef, caller := r.caller, ext := s.pins.ext.get l, loop := s.pins.loop.get l,
    changes := r.changes.get p, dial := (s.dq.get l).record,
    mailbox := (s.vm.session.get l).mailbox }

/-- LINE_STATUS (R3). -/
def execLineStatus (h : CmdHead) (line : Nat) (s : State) : Host.Outcome State Fault Refusal :=
  .next (carryOut h (.lineStatus line) (onLine line fun l s => (s, .ok, .line (lineView h.port l s))) s)

/-- The set without the named flags. -/
def Changes.dropAll (c : Changes) (fs : List ChangeFlag) : Changes := fs.foldl Changes.drop c

/-- ACK_CHANGES (R2). -/
def execAckChanges (h : CmdHead) (line : Nat) (flags : List ChangeFlag) (s : State) : Host.Outcome State Fault Refusal :=
  .next (carryOut h (.ackChanges line flags) (onLine line fun l s =>
    (s.updLc l fun r => { r with changes := r.changes.set h.port ((r.changes.get h.port).dropAll flags) }, justCode .ok)) s)

/-- SET_LINE_POLICY (R25). -/
def execSetLinePolicy (h : CmdHead) (line : Nat) (a : PolicyArgs) (s : State) : Host.Outcome State Fault Refusal :=
  .next (command h (.setLinePolicy line a) (onLine line fun l s =>
    if (s.lc.get l).controller = .port (otherPort h.port) then (s, justCode .lineHeld)
    else if policyBad a then (s, justCode .badArgument)
    else (s.updLc l fun r => { r with policy := applyPolicy a r.policy }, justCode .ok)) s)

/-- TAKE LINE by Table 1-13 (R15, R58). -/
def takeBody (p : PortId) (l : LineId) (s : State) : State × Result × ReplyBody :=
  let r := s.lc.get l
  if r.controller = .port (otherPort p) then (s, justCode .lineHeld)
  else if r.controller = .port p then (s, justCode .ok)
  else match r.state with
    | .idle => (setController l (.port p) s, justCode .ok)
    | .ringing => (setController l (.port p) (s.updLc l fun r => { r with due := false }), justCode .ok)
    | .seized => if r.purpose = .voice then (takeOver l p s, justCode .ok) else (s, justCode .busy)
    | .voice => (takeOver l p s, justCode .ok)
    | .fault => (s, justCode .wrongState)
    | .extension => (s, justCode .wrongState)
    | _ => (s, justCode .busy)

/-- TAKE_LINE (R15). -/
def execTakeLine (h : CmdHead) (line : Nat) (s : State) : Host.Outcome State Fault Refusal :=
  .next (command h (.takeLine line) (onLine line (takeBody h.port)) s)

/-- RELEASE_LINE (R18). -/
def execReleaseLine (h : CmdHead) (line : Nat) (s : State) : Host.Outcome State Fault Refusal :=
  .next (command h (.releaseLine line) (onHeldLine h.port line fun l s => (releaseLine l s, justCode .ok)) s)

/-- ANSWER in RINGING for a purpose (R17). -/
def answerBody (l : LineId) (p : Purpose) (s : State) : State × Result × ReplyBody :=
  match p with
  | .voice => (moveLine l .voice (seize l .voice (closeWindow l s)), justCode .accepted)
  | .fax =>
    if s.store.takesFax then (answerFor l .fax .fax (startReceiver l) (closeWindow l s), justCode .accepted)
    else (s, justCode .noRoom)
  | .data =>
    if isReady s .cp = false then (s, justCode .notReady)
    else if canTakeData s = false then (s, justCode .inUse)
    else (answerFor l .data .data (startLink l .answerer) (closeWindow l s), justCode .accepted)
  | _ => (s, justCode .badArgument)

/-- The purposes ANSWER takes (R17). -/
def answerable : Purpose → Bool
  | .voice => true
  | .fax => true
  | .data => true
  | _ => false

/-- ANSWER (R17). -/
def execAnswer (h : CmdHead) (line : Nat) (purpose : Option Purpose) (s : State) : Host.Outcome State Fault Refusal :=
  .next (command h (.answer line purpose) (onHeldLine h.port line fun l s =>
    match purpose with
    | none => (s, justCode .badArgument)
    | some p =>
      if answerable p = false then (s, justCode .badArgument)
      else if (s.lc.get l).state = .ringing then answerBody l p s
      else (s, justCode .wrongState)) s)

/-- HOOK_OFF (R17). -/
def execHookOff (h : CmdHead) (line : Nat) (s : State) : Host.Outcome State Fault Refusal :=
  .next (command h (.hookOff line) (onHeldLine h.port line fun l s =>
    if (s.lc.get l).state = .idle then
      (moveLine l .seized (s.updLc l fun r => { r with purpose := .none }), justCode .ok)
    else (s, justCode .wrongState)) s)

/-- Clear an off-hook line for its controlling port (R13). -/
def hangUpBody (l : LineId) (s : State) : State × Result × ReplyBody :=
  if (s.lc.get l).state.offHook then (clearLine l false s, justCode .ok) else (s, justCode .wrongState)

/-- HOOK_ON (R13). -/
def execHookOn (h : CmdHead) (line : Nat) (s : State) : Host.Outcome State Fault Refusal :=
  .next (command h (.hookOn line) (onHeldLine h.port line hangUpBody) s)

/-- HANG_UP (R13). -/
def execHangUp (h : CmdHead) (line : Nat) (s : State) : Host.Outcome State Fault Refusal :=
  .next (command h (.hangUp line) (onHeldLine h.port line hangUpBody) s)

end Sys2Proof.Machine
end

