-- ==== Sys2Proof/Machine/Answering.lean ====
section
/-! DEFINITION. PLAY, RECORD, STOP, CONNECT LOCAL, SET ACCESS CODE, and the timers of remote retrieval (spec 06). -/

namespace Sys2Proof.Machine

/-! ## Checks of PLAY and RECORD (R122, R123) -/

/-- The controller and state checks of a target: none where the operation may go on (R122). -/
def targetCheck (p : PortId) (c : CtxId) (s : State) : Option Result :=
  match lineOfCtx c with
  | none => none
  | some l =>
    match holdCheck p l s with
    | some r => some r
    | none =>
      let r := s.lc.get l
      if r.state = .voice ∨ (r.state = .seized ∧ r.purpose = .none) then none else some .wrongState

/-- The beep of a port's RECORD is being sent. -/
def beepPending (c : CtxId) (s : State) : Bool :=
  match lineOfCtx c with
  | some l => (s.vm.pendingRecord.get l).isSome
  | none => false

/-- A port RECORD whose beep is still being sent on a target's line is given up for another operation on it (log 56). -/
def dropBeep (c : CtxId) (s : State) : State :=
  match lineOfCtx c with
  | some l => dropPending l s
  | none => s

/-- LOCAL is held by a bridge, or by a CONTEXT the other port started (R122, R123). -/
def localHeld (p : PortId) (c : CtxId) (s : State) : Bool :=
  match c, s.vm.holder with
  | .loc, .bridge _ => true
  | .loc, .context => s.vm.localPort == some (otherPort p)
  | _, _ => false

/-- A SEIZED line enters VOICE, its unit is put into VOICE, and LOCAL's holder becomes CONTEXT (R122, R123). -/
def takeTarget (p : PortId) (c : CtxId) (s : State) : State :=
  match lineOfCtx c with
  | some l =>
    let s := if (s.lc.get l).state = .seized then moveLine l .voice (s.updLc l fun r => { r with purpose := .voice }) else s
    setMode l .voice s
  | none => s.updVm fun v => { v with holder := .context, localPort := some p }

/-! ## PLAY (R122) -/

/-- The entry of PLAY: NOT-FOUND where it is FREE or DELETE-PENDING, BAD-ARGUMENT for a kind that is not voice (R122). -/
def playCheck (n : Fin 128) (s : State) : Option Result :=
  let e := s.store.dir[n]
  if e.state = .free ∨ e.state = .deletePending then some .notFound
  else if e.kind.isVoice = false then some .badArgument
  else none

/-- The playback starts (R122): one under way for the same port is REPLACED. -/
def startPortPlay (p : PortId) (c : CtxId) (n : Fin 128) (start : Nat) (s : State) : State :=
  let s := if (s.vp.get c).activity = .playing then endPlayback c (playHolder c) .replaced s else s
  let s := onStore (Store.seek (playHolder c) start) (openPlay c n (takeTarget p c s))
  startReport c .play (some p) (some n) (startPlayback c (playHolder c) s)

/-- PLAY takes its target (R122). A RECORD whose beep is still being sent on the line is given up for it; a playback of that RECORD's own
entry starts on it, and ends MESSAGE-GONE as the entry is discarded (log 56). -/
def playOver (p : PortId) (c : CtxId) (n : Fin 128) (start : Nat) (s : State) : State :=
  match lineOfCtx c with
  | some l =>
    if s.vm.pendingRecord.get l = some n then
      discardWrite n (startPortPlay p c n start (reportGivenUp c (cutRecordBeep l s)))
    else startPortPlay p c n start (dropPending l s)
  | none => startPortPlay p c n start s

/-- PLAY, its checks in order (R122). -/
def playBody (p : PortId) (target : Option CtxId) (entry start : Nat) (s : State) : State × Result × ReplyBody :=
  match target, finOfNat 128 entry with
  | some c, some n =>
    (match targetCheck p c s with
     | some r => (s, justCode r)
     | none =>
       match playCheck n s with
       | some r => (s, justCode r)
       | none =>
         if (s.vp.get c).activity = .recording ∨ localHeld p c s then (s, justCode .busy)
         else (playOver p c n start s, justCode .accepted))
  | _, _ => (s, justCode .badArgument)

/-- PLAY (R122). -/
def execPlay (h : CmdHead) (target : Option CtxId) (entry : Nat) (start : Nat) (s : State) :
    Host.Outcome State Fault Refusal :=
  .next (command h (.play target entry start) (playBody h.port target entry start) s)

/-! ## RECORD (R123) -/

/-- The kind and mailbox of RECORD: VOICE and 0 if not named (R123). -/
def recordWhat (a : RecordArgs) : Option (Kind × Fin 5) :=
  match a.kind, finOfNat 5 (a.mailbox.getD 0) with
  | .absent, some m => some (.voice, m)
  | .val k, some m => if k.isVoice then some (k, m) else none
  | _, _ => none

/-- The recording, or the beep before it, starts (R123). DESIGN CHOICE, unsafe (log 73): the beep belongs to the operation RECORD. -/
def startPortRecord (p : PortId) (c : CtxId) (n : Fin 128) (beep : Bool) (s : State) : State :=
  let s := takeTarget p c s
  match lineOfCtx c, beep with
  | some l, true =>
    sendBeep l .recordBeep (startReport c .record (some p) (some n)
      (s.updVm fun v => { v with pendingRecord := v.pendingRecord.set l (some n) }))
  | _, _ => startReport c .record (some p) (some n) (startRecording c n s)

/-- RECORD, its checks in order (R123). -/
def recordBody (p : PortId) (a : RecordArgs) (s : State) : State × Result × ReplyBody :=
  match a.target, recordWhat a with
  | some c, some k =>
    if a.beep ∧ c = .loc then (s, justCode .badArgument)
    else
      (match targetCheck p c s with
       | some r => (s, justCode r)
       | none =>
         if (s.vp.get c).activity ≠ .idle ∨ localHeld p c s then (s, justCode .busy)
         else if s.store.free ≤ s.store.reserve then (s, justCode .noRoom)
         else match newVoice c k.1 k.2 (if s.store.freeEntry?.isSome then dropBeep c s else s) with
           | none => (s, justCode .noRoom)
           | some r => (startPortRecord p c r.1 a.beep r.2, .accepted, .entryNumber r.1.val))
  | _, _ => (s, justCode .badArgument)

/-- RECORD (R123). -/
def execRecord (h : CmdHead) (a : RecordArgs) (s : State) : Host.Outcome State Fault Refusal :=
  .next (command h (.record a) (recordBody h.port a) s)

/-! ## STOP (R124) -/

/-- Who may STOP a target: none where the port may (R124). -/
def stopCheck (p : PortId) (c : CtxId) (s : State) : Option Result :=
  match lineOfCtx c with
  | some l => holdCheck p l s
  | none => if s.vm.holder = .context ∧ s.vm.localPort = some (otherPort p) then some .busy else none

/-- STOP what a target does (R124). -/
def stopTarget (c : CtxId) (s : State) : State :=
  if beepPending c s then dropBeep c s
  else if (s.vp.get c).activity = .playing then endPortPlay c .stopped s
  else stopPortRecord c .stopped 0 s

/-- STOP, its checks in order (R124). -/
def stopBody (p : PortId) (target : Option CtxId) (s : State) : State × Result × ReplyBody :=
  match target with
  | none => (s, justCode .badArgument)
  | some c =>
    match stopCheck p c s with
    | some r => (s, justCode r)
    | none =>
      if (s.vp.get c).activity = .idle ∧ beepPending c s = false then (s, justCode .wrongState)
      else (stopTarget c s, justCode .ok)

/-- STOP (R124). -/
def execStop (h : CmdHead) (target : Option CtxId) (s : State) : Host.Outcome State Fault Refusal :=
  .next (command h (.stop target) (stopBody h.port target) s)

/-! ## CONNECT LOCAL (R121) -/

/-- CONNECT LOCAL with on (R121). -/
def connectOn (l : LineId) (s : State) : State × Result × ReplyBody :=
  let r := s.lc.get l
  if r.state ≠ .voice ∧ (r.state ≠ .seized ∨ r.purpose ≠ .none) then (s, justCode .wrongState)
  else if (s.vp.get (ctxOf l)).activity ≠ .idle then (s, justCode .busy)
  else match s.vm.holder with
    | .context => (s, justCode .busy)
    | .bridge _ => (s, justCode .busy)
    | _ =>
      let s := (setMode l .voice (dropPending l s)).updVm fun v => { v with holder := .bridge l, micOut := 0 }
      (moveLine l .talk (s.updLc l fun r => { r with purpose := .talk }), justCode .ok)

/-- CONNECT LOCAL with off (R121). -/
def connectOff (l : LineId) (s : State) : State × Result × ReplyBody :=
  if (s.lc.get l).state = .talk then
    (setMode l .quiet (moveLine l .voice ((dropBridge l s).updLc l fun r => { r with purpose := .voice })), justCode .ok)
  else (s, justCode .wrongState)

/-- CONNECT_LOCAL (R121). -/
def execConnectLocal (h : CmdHead) (line : Nat) (on : Bool) (s : State) : Host.Outcome State Fault Refusal :=
  .next (command h (.connectLocal line on)
    (onHeldLine h.port line fun l s => if on then connectOn l s else connectOff l s) s)

/-! ## SET ACCESS CODE (R113) -/

/-- SET ACCESS CODE (R113). -/
def accessBody (a : AccessArg) (s : State) : State × Result × ReplyBody :=
  match a with
  | .none => (s.updVm fun v => { v with accessCode := none }, justCode .ok)
  | .digits a b c d => (s.updVm fun v => { v with accessCode := some [a, b, c, d] }, justCode .ok)
  | .bad => (s, justCode .badArgument)

/-- SET_ACCESS_CODE (R113). -/
def execSetAccessCode (h : CmdHead) (a : AccessArg) (s : State) : Host.Outcome State Fault Refusal :=
  .next (carryOut h (.setAccessCode a) (accessBody a) s)

/-! ## Timers (R127, R130) -/

/-- CODE_TIMER_EXPIRY (R127). -/
def execCodeTimerExpiry (l : LineId) (s : State) : Host.Outcome State Fault Refusal :=
  .next (event (fun s =>
    let q := s.vm.session.get l
    if q.phase = .access ∧ q.codeTimer then wrongCode l s else s) s)

/-- KEY_TIMER_EXPIRY (R130). -/
def execKeyTimerExpiry (l : LineId) (s : State) : Host.Outcome State Fault Refusal :=
  .next (event (fun s =>
    let q := s.vm.session.get l
    if q.phase = .menu ∧ q.keyTimer then leaveRetrieval l s else s) s)

/-- REFUSAL_SIGNAL_GAP_END: the second beep is asked for (R127). -/
def execRefusalSignalGapEnd (l : LineId) (s : State) : Host.Outcome State Fault Refusal :=
  .next (event (fun s => match s.vm.signal.get l with
    | .refuseGap next => sendBeep l (.refuseSecond next) s
    | _ => s) s)

end Sys2Proof.Machine
end

