-- ==== Sys2Proof/Machine/Dialling.lean ====
section
/-! DEFINITION. The dialler's timers and the commands on dials and on the call queue (spec 03). -/

namespace Sys2Proof.Machine

/-! ## The dialler's timers (R48 to R50, R52) -/

/-- The dialler of a line waits for a dial tone. -/
def waitsTone (l : LineId) (s : State) : Bool :=
  match (s.dq.get l).step with
  | .dialTone _ => true
  | _ => false

/-- DIAL_TONE_WAIT_TIMEOUT: 5000 ms without a DIAL class (R48). -/
def execDialToneWaitTimeout (l : LineId) (s : State) : Host.Outcome State Fault Refusal :=
  .next (event (fun s => if waitsTone l s then failDial l .noDialTone s else s) s)

/-- DIAL_PAUSE_END (R49). -/
def execDialPauseEnd (l : LineId) (s : State) : Host.Outcome State Fault Refusal :=
  .next (event (fun s => if (s.dq.get l).step = .pause then symbolEnds l s else s) s)

/-- PULSE_BREAK_END: the relay is operated for the make (R50). -/
def execPulseBreakEnd (l : LineId) (s : State) : Host.Outcome State Fault Refusal :=
  .next (event (fun s => match (s.dq.get l).step with
    | .pulseBreak k => setRelay l true (setDialStep l (.pulseMake k) s)
    | _ => s) s)

/-- A digit's last make ends: the position moves on, and a pause is held where a symbol follows (R50). -/
def digitEnds (l : LineId) (s : State) : State :=
  let s := updDial l (fun d => { d with position := d.position + 1 }) s
  let d := (s.dq.get l).record
  if d.position < d.string.length then setDialStep l .digitPause s else startAwaiting l s

/-- PULSE_MAKE_END: the next break begins, or the digit ends (R50). -/
def execPulseMakeEnd (l : LineId) (s : State) : Host.Outcome State Fault Refusal :=
  .next (event (fun s => match (s.dq.get l).step with
    | .pulseMake k => if 1 < k then setRelay l false (setDialStep l (.pulseBreak (k - 1)) s) else digitEnds l s
    | _ => s) s)

/-- DIGIT_PAUSE_END (R50). -/
def execDigitPauseEnd (l : LineId) (s : State) : Host.Outcome State Fault Refusal :=
  .next (event (fun s => if (s.dq.get l).step = .digitPause then dialNext l 41 s else s) s)

/-- FLASH_END (R50). -/
def execFlashEnd (l : LineId) (s : State) : Host.Outcome State Fault Refusal :=
  .next (event (fun s => if (s.dq.get l).step = .flash then symbolEnds l (setRelay l true s) else s) s)

/-- ANSWER_TIMER_EXPIRY: 60000 ms in AWAITING (R52). -/
def execAnswerTimerExpiry (l : LineId) (s : State) : Host.Outcome State Fault Refusal :=
  .next (event (fun s => if (s.dq.get l).record.phase = .awaiting then failDial l .noAnswer s else s) s)

/-- RINGBACK_SILENCE_EXPIRY: after at least one RINGBACK, 6000 ms without a tone (R52). -/
def execRingbackSilenceExpiry (l : LineId) (s : State) : Host.Outcome State Fault Refusal :=
  .next (event (fun s =>
    let d := s.dq.get l
    if d.record.phase = .awaiting ∧ d.silence ∧ 1 ≤ d.record.ringbacks then dialAnswered l .answeredVoice s else s) s)

/-! ## DIAL (R54) -/

/-- The purpose of a port's dial: VOICE if none is named (R54). -/
def dialPurposeOf : Arg Purpose → Option (Purpose × DialPurpose)
  | .absent => some (.voice, .voice)
  | .val .voice => some (.voice, .voice)
  | .val .data => some (.data, .data)
  | _ => none

/-- The line and computer checks of DIAL: none where the dial may begin (R54). -/
def dialCheck (l : LineId) (p : DialPurpose) (s : State) : Option Result :=
  let r := s.lc.get l
  if r.state = .dialling ∨ r.state = .awaiting then some .busy
  else if r.state ≠ .idle ∧ (r.state ≠ .seized ∨ r.purpose ≠ .none) then some .wrongState
  else if p = .data ∧ isReady s .cp = false then some .notReady
  else if p = .data ∧ canTakeData s = false then some .inUse
  else none

/-- DIAL of a checked string: the line is taken off hook if it is IDLE, and the dial begins (R54). -/
def startDial (p : PortId) (l : LineId) (str : List DialSym) (q : Purpose × DialPurpose) (a : DialArgs) (s : State) : State :=
  let s := if (s.lc.get l).state = .idle then moveLine l .seized s else s
  let s := s.updLc l fun r => { r with purpose := q.1 }
  beginDial l (.port p) str q.2 (orClamp 8 1 15 a.limit) a.blind s

/-- DIAL (R54). -/
def execDial (h : CmdHead) (line : Nat) (a : DialArgs) (s : State) : Host.Outcome State Fault Refusal :=
  .next (command h (.dial line a) (onHeldLine h.port line fun l s =>
    match dialPurposeOf a.purpose, dialString a.string with
    | some q, some str =>
      (match dialCheck l q.2 s with
       | some r => (s, justCode r)
       | none => (startDial h.port l str q a s, justCode .accepted))
    | _, _ => (s, justCode .badArgument)) s)

/-! ## QUEUE CALL (R56) -/

/-- The message a queued call needs: none where the number is missing, unwanted or above 127 (R56). -/
def queueMessage (p : QueuePurpose) (m : Option Nat) : Option (Option (Fin 128)) :=
  match p, m with
  | .data, none => some none
  | .ringOnly, none => some none
  | .faxSend, some k => (finOfNat 128 k).map some
  | .voiceDeliver, some k => (finOfNat 128 k).map some
  | _, _ => none

/-- The kind fits the purpose (R56). -/
def kindFits (p : QueuePurpose) (k : Kind) : Bool :=
  match p with
  | .faxSend => k.isFax
  | .voiceDeliver => k.isVoice
  | _ => true

/-- The checks of the message a call refers to, in order (R56). -/
def messageCheck (p : QueuePurpose) (m : Option (Fin 128)) (st : Store) : Option Result :=
  match m with
  | none => none
  | some n =>
    let e := st.dir[n]
    if e.state = .free ∨ e.state = .deletePending then some .notFound
    else if kindFits p e.kind = false then some .badArgument
    else if e.state = .writing then some .wrongState
    else none

/-- The finished entry with the smallest finish order among a list. -/
def oldestFinished (s : State) : List (Fin 8) → Option (Fin 8)
  | [] => none
  | n :: ns =>
    match oldestFinished s ns with
    | none => if s.queue[n].state.finished then some n else none
    | some m =>
      if s.queue[n].state.finished ∧ (s.queue[n].finish).getD 0 ≤ (s.queue[m].finish).getD 0 then some n else some m

/-- The slot of a new call: the lowest EMPTY entry, else the oldest finished (R56). -/
def queueSlot (s : State) : Option (Fin 8) :=
  match allEntries.find? fun n => s.queue[n].state == .empty with
  | some n => some n
  | none => oldestFinished s allEntries

/-- Put a call in its slot (R56). -/
def putCall (n : Fin 8) (str : List DialSym) (p : QueuePurpose) (m : Option (Fin 128)) (a : QueueArgs) (s : State) : State :=
  let e : QueueEntry :=
    { state := .waiting, order := s.createCounter, finish := none, string := str, blind := a.blind, purpose := p, message := m,
      pref := a.pref.orElse .either, line := none, earliest := s.queueTime + orClamp 0 0 86400 a.delay, attempts := 0,
      attemptLimit := orClamp 3 1 9 a.attempts, interval := orClamp 5 1 30 a.interval, ringLimit := orClamp 8 1 15 a.limit,
      outcome := none }
  let s := changeEntry n (fun _ => e) { s with createCounter := s.createCounter + 1 }
  match m with
  | some k => onStore (Store.openHandle ⟨.entry n, k, false, 0⟩) s
  | none => s

/-- QUEUE CALL, its checks in order (R56). -/
def queueBody (a : QueueArgs) (s : State) : State × Result × ReplyBody :=
  match a.purpose, a.pref.isBad, dialString a.string with
  | some p, false, some str =>
    (match queueMessage p a.message with
     | none => (s, justCode .badArgument)
     | some m =>
       match messageCheck p m s.store with
       | some r => (s, justCode r)
       | none =>
         match queueSlot s with
         | none => (s, justCode .queueFull)
         | some n => (putCall n str p m a s, .accepted, .entryNumber n.val))
  | _, _, _ => (s, justCode .badArgument)

/-- QUEUE_CALL (R56). -/
def execQueueCall (h : CmdHead) (a : QueueArgs) (s : State) : Host.Outcome State Fault Refusal :=
  .next (command h (.queueCall a) (queueBody a) s)

/-! ## CANCEL CALL, REMOVE CALL, LIST CALLS (R62, R63) -/

/-- A command on a call-queue entry: BAD-ARGUMENT above 7, NOT-FOUND for an EMPTY entry (R62, R63). -/
def onCall (n : Nat) (body : Fin 8 → State → State × Result × ReplyBody) (s : State) : State × Result × ReplyBody :=
  match finOfNat 8 n with
  | none => (s, justCode .badArgument)
  | some k => if s.queue[k].state = .empty then (s, justCode .notFound) else body k s

/-- Clear the line that carries an entry's call. -/
def clearCall (l : Option LineId) (s : State) : State :=
  match l with
  | some l => if (s.lc.get l).state.offHook then clearLine l false s else s
  | none => s

/-- CANCEL CALL by the entry's state (R62). A call in progress: the entry is CANCELLED, and its line is cleared. -/
def cancelBody (n : Fin 8) (s : State) : State × Result × ReplyBody :=
  match s.queue[n].state with
  | .waiting => (cancelEntry n s, justCode .ok)
  | .dialling => (clearCall s.queue[n].line s, justCode .ok)
  | .inCall => (clearCall s.queue[n].line (cancelEntry n s), justCode .ok)
  | _ => (s, justCode .wrongState)

/-- CANCEL_CALL (R62). -/
def execCancelCall (h : CmdHead) (entry : Nat) (s : State) : Host.Outcome State Fault Refusal :=
  .next (command h (.cancelCall entry) (onCall entry cancelBody) s)

/-- REMOVE_CALL (R63). -/
def execRemoveCall (h : CmdHead) (entry : Nat) (s : State) : Host.Outcome State Fault Refusal :=
  .next (command h (.removeCall entry) (onCall entry fun n s =>
    if s.queue[n].state.finished then (changeEntry n (fun _ => .empty) s, justCode .ok) else (s, justCode .wrongState)) s)

/-- One entry of LIST CALLS (R63). -/
def callView (s : State) (n : Fin 8) : CallView :=
  let e := s.queue[n]
  { number := n, state := e.state, purpose := e.purpose, string := e.string, blind := e.blind, message := e.message,
    pref := e.pref, line := e.line, remaining := e.earliest - s.queueTime, attempts := e.attempts,
    attemptLimit := e.attemptLimit, interval := e.interval, ringLimit := e.ringLimit, outcome := e.outcome }

/-- Every entry that is not EMPTY, in number order (R63). -/
def callViews (s : State) : List CallView :=
  (allEntries.filter fun n => s.queue[n].state != .empty).map (callView s)

/-- LIST_CALLS (R63). -/
def execListCalls (h : CmdHead) (s : State) : Host.Outcome State Fault Refusal :=
  .next (carryOut h .listCalls (fun s => (s, .ok, .calls (callViews s))) s)

/-! ## Queue time (R55, R57) -/

/-- QUEUE_TIME_TICK: queue time advances by one second, standby included (R55). -/
def execQueueTimeTick (s : State) : Host.Outcome State Fault Refusal :=
  .next { s with queueTime := s.queueTime + 1 }

/-- ENTRY_DUE: dispatch is looked at for an entry that has become due (R57). -/
def execEntryDue (entry : Fin 8) (s : State) : Host.Outcome State Fault Refusal :=
  .next (event (fun s =>
    if s.queue[entry].state = .waiting ∧ s.queue[entry].earliest ≤ s.queueTime then dispatch s else s) s)

end Sys2Proof.Machine
end

