-- ==== Sys2Proof/Machine/Signals.lean ====
section
/-! DEFINITION. The Signal Unit's events and SET CADENCE (spec 02): each event is set in the unit and handed to the block it concerns. -/

namespace Sys2Proof.Machine

/-! ## Tones and cadences (R32 to R34) -/

/-- A cadence class reaches the dialler, the Line Controller and the Voice Message Controller (R12, R48, R52, R117, R118). -/
def cadenceRaised (l : LineId) (e : CadenceClassEvent) (s : State) : State :=
  let dials := (s.dq.get l).record.phase != .idle
  if dials then dialCadence l e.cls s
  else if e.cls = .faxCalling then (if classifying l s then turnToFax l s else s)
  else if (e.cls = .dial ∨ e.cls = .busy ∨ e.cls = .congestion) ∧ (s.lc.get l).state = .voice then voiceTone l e.runStart s
  else s

/-- Hand on what the classifier raised. -/
def raiseCadence (l : LineId) (r : SignalUnit × Option CadenceClassEvent) (s : State) : State :=
  let s := s.updSu l fun _ => r.1
  match r.2 with
  | some e => cadenceRaised l e s
  | none => s

/-- The 6000 ms of silence of call progress (R52). -/
def setSilence (l : LineId) (on : Bool) (s : State) : State := s.updDq l fun d => { d with silence := on }

/-- TONE_ON at time `t` (R32, R33). -/
def execToneOn (l : LineId) (t : Nat) (s : State) : Host.Outcome State Fault Refusal :=
  .next (event (fun s =>
    if (s.su.get l).hearsTones ∧ (s.su.get l).onAt = none then
      raiseCadence l ((s.su.get l).toneOn t) (setSilence l false s)
    else s) s)

/-- TONE_OFF at time `t` (R32, R33, R52). -/
def execToneOff (l : LineId) (t : Nat) (s : State) : Host.Outcome State Fault Refusal :=
  .next (event (fun s =>
    if (s.su.get l).hearsTones ∧ (s.su.get l).onAt ≠ none then
      let s := s.updSu l (SignalUnit.toneOff t)
      if (s.dq.get l).record.phase = .awaiting then setSilence l true s else s
    else s) s)

/-- CONTINUOUS_CADENCE (R34). -/
def execContinuousCadence (l : LineId) (entry : Fin 8) (s : State) : Host.Outcome State Fault Refusal :=
  .next (event (fun s => raiseCadence l ((s.su.get l).continuous entry) s) s)

/-- CADENCE_RESET (R33). -/
def execCadenceReset (l : LineId) (entry : Fin 8) (s : State) : Host.Outcome State Fault Refusal :=
  .next (event (fun s => s.updSu l (SignalUnit.resetCadence entry)) s)

/-! ## The other detectors (R36) -/

/-- KEYPAD_DIGIT: once for each press, in VOICE (R36); a digit reaches the Voice Message Controller of a line in VOICE. -/
def execKeypadDigit (l : LineId) (k : Key) (s : State) : Host.Outcome State Fault Refusal :=
  .next (event (fun s =>
    if (s.su.get l).mode = .voice ∧ (s.su.get l).heardKeypad = false then
      let s := s.updSu l fun u => { u with detector := .keypad, heardKeypad := true }
      if (s.lc.get l).state = .voice then voiceKey l k s else s
    else s) s)

/-- ANSWER_TONE: in TONES, once per period (R36, R52). -/
def execAnswerTone (l : LineId) (s : State) : Host.Outcome State Fault Refusal :=
  .next (event (fun s =>
    if (s.su.get l).mode = .tones ∧ (s.su.get l).heardAnswer = false then
      let s := s.updSu l fun u => { u with detector := .answer, heardAnswer := true }
      if (s.dq.get l).record.phase = .awaiting then dialAnswered l .answeredTone s else s
    else s) s)

/-- DATA_CALLING_TONE: in TONES and VOICE, once per period (R36, R12). -/
def execDataCallingTone (l : LineId) (s : State) : Host.Outcome State Fault Refusal :=
  .next (event (fun s =>
    if isToneMode (s.su.get l).mode ∧ (s.su.get l).heardData = false then
      let s := s.updSu l fun u => { u with detector := .dataCalling, heardData := true }
      if classifying l s then turnToData l s else s
    else s) s)

/-- SPEECH: in TONES, after 200 ms without (R36, R52). -/
def execSpeech (l : LineId) (s : State) : Host.Outcome State Fault Refusal :=
  .next (event (fun s =>
    if (s.su.get l).mode = .tones ∧ (s.su.get l).heardSpeech = false then
      let s := s.updSu l fun u => { u with detector := .speech, heardSpeech := true }
      if (s.dq.get l).record.phase = .awaiting then dialAnswered l .answeredVoice s else s
    else s) s)

/-- The detector output of what was heard. -/
def outputOf : Heard → Detector
  | .keypad => .keypad
  | .answer => .answer
  | .dataCalling => .dataCalling
  | .speech => .speech

/-- The detector re-arms, and its output returns to NONE (R36). -/
def SignalUnit.rearm (w : Heard) (u : SignalUnit) : SignalUnit :=
  let u := { u with detector := if u.detector = outputOf w then .none else u.detector }
  match w with
  | .keypad => { u with heardKeypad := false }
  | .answer => { u with heardAnswer := false }
  | .dataCalling => { u with heardData := false }
  | .speech => { u with heardSpeech := false }

/-- TONE_NO_LONGER_HEARD (R36). -/
def execToneNoLongerHeard (l : LineId) (what : Heard) (s : State) : Host.Outcome State Fault Refusal :=
  .next (event (fun s => s.updSu l (SignalUnit.rearm what)) s)

/-! ## Generation (R37) -/

/-- A beep is done, by what it was for (R116, R123, R127, R129). -/
def beepComplete (l : LineId) (s : State) : State :=
  match s.vm.signal.get l with
  | .none => s
  | .sessionBeep => beepDone l s
  | .recordBeep => recordBeepDone l s
  | .greetingBeep => greetingBeepDone l s
  | .accept next => (let s := s.setSignal l .none; if next then nextItem l s else s)
  | .refuseFirst next => s.setSignal l (.refuseGap next)
  | .refuseGap _ => s
  | .refuseSecond next => (let s := s.setSignal l .none; if next then nextItem l s else s)

/-- The block that asked for a tone is told COMPLETE (R37). -/
def toneComplete (l : LineId) (g : Tone) (s : State) : State :=
  match g with
  | .keypad _ => if (s.dq.get l).step = .tone then symbolEnds l s else s
  | .beep => beepComplete l s
  | .answerTone => if (s.fw.get l).step = .answerTone then answerToneDone l s else s

/-- GENERATION_DONE with result COMPLETE (R37). -/
def execGenerationDone (l : LineId) (s : State) : Host.Outcome State Fault Refusal :=
  .next (event (fun s => match (s.su.get l).generation with
    | some g => toneComplete l g.tone (endTone l .complete s)
    | none => s) s)

/-! ## SET CADENCE (R35) -/

/-- The unit with named entries and keypad-tone times replaced. -/
def SignalUnit.withCadence (es : List (Fin 8 × CadenceEntry)) (on gap : Option Nat) (u : SignalUnit) : SignalUnit :=
  let u := replaceCadence es u
  { u with toneOnTime := orClamp u.toneOnTime 50 200 on, toneGapTime := orClamp u.toneGapTime 50 200 gap }

/-- The reply of SET CADENCE: the whole table and both times. -/
def cadenceReply (u : SignalUnit) : ReplyBody := .cadence u.cadence.toList u.toneOnTime u.toneGapTime

/-- SET_CADENCE (R35). -/
def execSetCadence (h : CmdHead) (line : Nat) (a : CadenceArgs) (s : State) : Host.Outcome State Fault Refusal :=
  .next (carryOut h (.setCadence line a) (onLine line fun l s =>
    if (s.lc.get l).controller = .port (otherPort h.port) then (s, justCode .lineHeld)
    else match cadencesOf a.entries with
      | none => (s, justCode .badArgument)
      | some es =>
        let t := s.updSu l (SignalUnit.withCadence es a.onTime a.gapTime)
        (t, .ok, cadenceReply (t.su.get l))) s)

/-! ## Training, quality, carrier (R38 to R42) -/

/-- The line's Frame Channel serves a fax session. -/
def faxOn (l : LineId) (s : State) : Bool := (s.fx.get l).role != .none

/-- The checked link is on the line. -/
def linkOn (l : LineId) (s : State) : Bool := s.cl.state != .ended && s.cl.line == some l

/-- A training fails (R38): the fax session or the link is told. -/
def trainingFails (l : LineId) (q : Fin 64) (s : State) : State :=
  let s := followUnit l (s.updSu l (SignalUnit.trainingFailed q))
  if faxOn l s then faxTrainingFailed l s else if linkOn l s then endLink .noCarrier s else s

/-- A training completes at an index (R38, R41). -/
def trainingDone (l : LineId) (q : Fin 64) (i : Fin 6) (s : State) : State :=
  let s := followUnit l (s.updSu l (SignalUnit.trained q i))
  if faxOn l s then faxTrained l i s else if linkOn l s then linkBack i q s else s

/-- TRAINING_COMPLETE: the far end's training signal is received with a measure (R38). -/
def execTrainingComplete (l : LineId) (measure : Fin 64) (s : State) : Host.Outcome State Fault Refusal :=
  .next (event (fun s =>
    let u := s.su.get l
    if u.training then
      match chooseRate u.ownCeiling u.peerCeiling measure with
      | some i => trainingDone l measure i s
      | none => trainingFails l measure s
    else s) s)

/-- TRAINING_TIMEOUT: no far training signal within 6000 ms (R38). -/
def execTrainingTimeout (l : LineId) (s : State) : Host.Outcome State Fault Refusal :=
  .next (event (fun s => if (s.su.get l).training then trainingFails l (s.su.get l).quality s else s) s)

/-- In DATA or FAX-FAST with training NONE and carrier PRESENT (R39, R42). -/
def SignalUnit.receiving (u : SignalUnit) : Bool := isTrainedMode u.mode && !u.training && u.carrier

/-- QUALITY_REPORT (R39). -/
def execQualityReport (l : LineId) (measure : Fin 64) (s : State) : Host.Outcome State Fault Refusal :=
  .next (event (fun s =>
    if (s.su.get l).receiving then
      let s := s.updSu l fun u => { u with quality := measure }
      if linkOn l s then s.updCl fun c => { c with quality := measure } else s
    else s) s)

/-- The unit follows the far end's carrier: a bit mode with no training under way (R40). -/
def SignalUnit.followsCarrier (u : SignalUnit) : Bool := isBitMode u.mode && !u.training

/-- CARRIER_LOST (R40). -/
def execCarrierLost (l : LineId) (s : State) : Host.Outcome State Fault Refusal :=
  .next (event (fun s =>
    if (s.su.get l).followsCarrier ∧ (s.su.get l).carrier then
      let s := followUnit l (s.updSu l fun u => { u with carrier := false, lossTimer := u.watch })
      if faxOn l s then faxCarrierLost l s else if linkOn l s then suspendTimers s else s
    else s) s)

/-- The unit begins a retrain of its own accord (R41, R184). -/
def unitRetrains (l : LineId) (s : State) : State :=
  let s := retrain l none s
  if linkOn l s then linkRetrains s else s

/-- CARRIER_BACK: with a retrain after a short loss, in DATA and in watched FAX-FAST (R40, R41). DESIGN CHOICE, unsafe (log 66): after
carrier gone has ended the call the unit is in QUIET (R30), where it follows no carrier, and the carrier stays ABSENT. -/
def execCarrierBack (l : LineId) (s : State) : Host.Outcome State Fault Refusal :=
  .next (event (fun s =>
    let u := s.su.get l
    if u.followsCarrier ∧ u.carrier = false then
      let s := followUnit l (s.updSu l fun u => { u with carrier := true, lossTimer := false })
      if u.lossTimer ∧ isTrainedMode u.mode then unitRetrains l s else s
    else s) s)

/-- CARRIER_GONE: the serving block ends its call with NO-CARRIER (R40). -/
def execCarrierGone (l : LineId) (s : State) : Host.Outcome State Fault Refusal :=
  .next (event (fun s =>
    if (s.su.get l).lossTimer then
      let s := s.updSu l fun u => { u with lossTimer := false }
      if faxOn l s then endFax l .noCarrier s else if linkOn l s then endLink .noCarrier s else s
    else s) s)

/-- RETRAIN_REQUESTED (R41). DESIGN CHOICE, unsafe (log 67): a request during the first training of DATA or FAX-FAST is ignored. -/
def execRetrainRequested (l : LineId) (s : State) : Host.Outcome State Fault Refusal :=
  .next (event (fun s =>
    if isTrainedMode (s.su.get l).mode ∧ (s.su.get l).training = false then unitRetrains l s else s) s)

/-- DISTURBANCE: the line being received is spoiled (R42, R156). -/
def execDisturbance (l : LineId) (s : State) : Host.Outcome State Fault Refusal :=
  .next (event (fun s =>
    if (s.su.get l).receiving ∧ (s.fx.get l).role = .receiver ∧ (s.fw.get l).step = .pageData then
      s.updFw l fun w => { w with lineSpoiled := true }
    else s) s)

end Sys2Proof.Machine
end

