-- ==== Sys2Proof/Machine/Frames.lean ====
section
/-! DEFINITION. The Frame Channel's events (spec 07): frames sent and received, and transparent octets. -/

namespace Sys2Proof.Machine

/-! ## The transmitter (R137, R138, R144) -/

/-- The record of the frame in progress. -/
def Channel.inProgress (c : Channel) : Option FrameRec := if c.frameInProgress then c.txQueue.head? else none

/-- FRAME_SENT: the closing flag is sent, the record is reported SENT, and `wire` shows the frame's bits and its closing flag (R134,
R137). -/
def execFrameSent (l : LineId) (s : State) : Host.Outcome State Fault Refusal :=
  .next (event (fun s => match (s.fc.get l).inProgress with
    | some r => s.updFc l (Channel.frameSent (wireOf l r s))
    | none => s) s)

/-- A record whose content its owner delivers as it is sent: a page frame. The content of every other frame is handed over with its
record and is always there (R138, R173). -/
def canUnderrun (r : FrameRec) : Bool :=
  match r.content with
  | .page _ _ => true
  | _ => false

/-- UNDERRUN: the abort is sent and the record is reported SENT-ABORTED (R138). -/
def execUnderrun (l : LineId) (s : State) : Host.Outcome State Fault Refusal :=
  .next (event (fun s => match (s.fc.get l).inProgress with
    | some r => if canUnderrun r then s.updFc l Channel.underrun else s
    | none => s) s)

/-- TRANSPARENT_DRY: the owner has no octet ready, a zero octet goes out, and DRY is told once in each run (R144). -/
def execTransparentDry (l : LineId) (s : State) : Host.Outcome State Fault Refusal :=
  .next (event (fun s => s.updFc l Channel.runDry) s)

/-! ## The receiver (R141 to R144) -/

/-- A change of a bound channel's receiver by bits the Signal Unit delivers (R43, R141); plain operation bypasses the channel (R43). -/
def onBits (l : LineId) (f : Channel → Channel) (s : State) : State :=
  if (s.su.get l).delivers ∧ (s.su.get l).plain = false ∧ (s.fc.get l).owner ≠ .none then s.updFc l f else s

/-- A frame the Signal Unit's mode can bring: fax control frames travel at FAX-SLOW and concern the Fax Controller (R149, log 15). -/
def canBring (l : LineId) (f : LineFrame) (s : State) : Bool :=
  match f with
  | .bits _ => true
  | .control _ => (s.su.get l).mode == .faxSlow && (s.fc.get l).owner == .fx

/-- FRAME_RECEIVED: a closing flag completes a record with its verdict (R141, R143), and the owner takes it. -/
def execFrameReceived (l : LineId) (f : LineFrame) (s : State) : Host.Outcome State Fault Refusal :=
  .next (event (fun s => if canBring l f s then onBits l (Channel.closingFlag f) s else s) s)

/-- FRAME_ABORT_RECEIVED: seven consecutive ones (R141). -/
def execFrameAbortReceived (l : LineId) (s : State) : Host.Outcome State Fault Refusal :=
  .next (event (onBits l Channel.abortSeen) s)

/-- FLAG_FOUND: a flag that completes no frame (R141). -/
def execFlagFound (l : LineId) (s : State) : Host.Outcome State Fault Refusal :=
  .next (event (onBits l Channel.flag) s)

/-- FRAME_FIRST_BIT (R141). -/
def execFrameFirstBit (l : LineId) (s : State) : Host.Outcome State Fault Refusal :=
  .next (event (onBits l Channel.firstBit) s)

/-- ADDRESS_OCTET_RECEIVED (R142). -/
def execAddressOctetReceived (l : LineId) (octet : Byte) (s : State) : Host.Outcome State Fault Refusal :=
  .next (event (onBits l (Channel.address octet)) s)

/-- RECEIVE_LIMIT_EXCEEDED (R142). -/
def execReceiveLimitExceeded (l : LineId) (s : State) : Host.Outcome State Fault Refusal :=
  .next (event (onBits l Channel.overLimit) s)

/-- TRANSPARENT_OCTET_RECEIVED: a transparent receiver hands the octet to its owner (R144, R152, R155). -/
def execTransparentOctetReceived (l : LineId) (octet : Byte) (s : State) : Host.Outcome State Fault Refusal :=
  .next (event (fun s =>
    if (s.su.get l).delivers ∧ (s.su.get l).plain = false ∧ (s.fc.get l).rxMode = .transparent ∧
        (s.fc.get l).rxState = .frame then
      faxOctet l octet s
    else s) s)

end Sys2Proof.Machine
end

