-- ==== Sys2Proof/Machine/Fax.lean ====
section
/-! DEFINITION. The fax sessions' timers and commands (spec 08). -/

namespace Sys2Proof.Machine

/-! ## Timers (R149, R151, R152, R160) -/

/-- FAX_RESPONSE_TIMEOUT: the 3000 ms response timer expires (R149). -/
def execFaxResponseTimeout (l : LineId) (s : State) : Host.Outcome State Fault Refusal :=
  .next (event (fun s => if (s.fx.get l).timer then responseTimeout l s else s) s)

/-- CHECK_ZEROS_END: the sender has sent 1500 ms of zeros and waits for the result at FAX-SLOW; `wire` shows its
b zero bits (R151). -/
def execCheckZerosEnd (l : LineId) (s : State) : Host.Outcome State Fault Refusal :=
  .next (event (fun s =>
    if (s.fx.get l).role = .sender ∧ (s.fw.get l).step = .checkZeros then
      waitCheck l (s.updFc l fun c => { c with wire := List.replicate (checkBitCount (faxRate l s)) false })
    else s) s)

/-- CHECK_BITS_TIMEOUT: the check bits have not arrived within 3000 ms, and the check fails (R152). -/
def execCheckBitsTimeout (l : LineId) (s : State) : Host.Outcome State Fault Refusal :=
  .next (event (fun s => match (s.fx.get l).role, (s.fw.get l).step with
    | .receiver, .checkBits _ _ => judgeCheck l false s
    | _, _ => s) s)

/-- PAGE_DATA_SENT: the last line and the six marker pairs have been sent (R160). -/
def execPageDataSent (l : LineId) (s : State) : Host.Outcome State Fault Refusal :=
  .next (event (fun s =>
    if (s.fx.get l).role = .sender ∧ (s.fw.get l).step = .pageData then linesSent l s else s) s)

/-! ## FAX RECEIVE and FAX ABORT (R168) -/

/-- A line a port may turn to FAX or DATA: in VOICE, or in SEIZED with purpose NONE (R168, R187). -/
def canTurn (l : LineId) (s : State) : Bool :=
  (s.lc.get l).state == .voice || ((s.lc.get l).state == .seized && (s.lc.get l).purpose == .none)

/-- The port's work on the line ends and the line is handed to a block (R168, R187). -/
def turnLine (l : LineId) (p : Purpose) (st : LineState) (start : State → Option State) (s : State) : State :=
  handOn l st start ((clearPortWork l .stopped s).updLc l fun r => { r with purpose := p })

/-- FAX RECEIVE, its checks in order (R168). -/
def faxReceiveBody (l : LineId) (s : State) : State × Result × ReplyBody :=
  if canTurn l s = false then (s, justCode .wrongState)
  else if s.store.takesFax = false then (s, justCode .noRoom)
  else (turnLine l .fax .fax (startReceiver l) s, justCode .accepted)

/-- FAX_RECEIVE (R168). -/
def execFaxReceive (h : CmdHead) (line : Nat) (s : State) : Host.Outcome State Fault Refusal :=
  .next (command h (.faxReceive line) (onHeldLine h.port line faxReceiveBody) s)

/-- FAX ABORT: refused to the port that does not control the line, and where the line is not in FAX (R168). -/
def faxAbortBody (p : PortId) (l : LineId) (s : State) : State × Result × ReplyBody :=
  if (s.lc.get l).controller = .port (otherPort p) then (s, justCode .lineHeld)
  else if (s.lc.get l).state ≠ .fax then (s, justCode .wrongState)
  else (abortFax l s, justCode .ok)

/-- FAX_ABORT (R168). -/
def execFaxAbort (h : CmdHead) (line : Nat) (s : State) : Host.Outcome State Fault Refusal :=
  .next (command h (.faxAbort line) (onLine line (faxAbortBody h.port)) s)

/-! ## FAX STATUS and SET FAX (R147, R169) -/

/-- The fields of FAX STATUS (R169). -/
def faxView (l : LineId) (s : State) : FaxView :=
  let x := s.fx.get l
  { role := x.role, state := x.state, choice := x.choice, offer := x.offer, farStation := x.farStation, document := x.document,
    page := x.page, kept := x.kept, resent := x.resent, received := x.received, badLines := x.badLines,
    longestBad := x.longestBad, verdict := (s.fw.get l).lastVerdict, block := x.block, round := x.round, lowered := x.lowered,
    missing := x.missing, error := x.error, outcome := x.outcome, rate := (s.su.get l).rate, quality := (s.su.get l).quality,
    counts := (s.fc.get l).counts }

/-- FAX_STATUS (R169). -/
def execFaxStatus (h : CmdHead) (line : Nat) (s : State) : Host.Outcome State Fault Refusal :=
  .next (carryOut h (.faxStatus line) (onLine line fun l s => (s, .ok, .fax (faxView l s))) s)

/-- SET FAX on a line: the settings named change, and the reply carries them all (R147). -/
def setFaxBody (p : PortId) (a : FaxArgs) (l : LineId) (s : State) : State × Result × ReplyBody :=
  if (s.lc.get l).controller = .port (otherPort p) then (s, justCode .lineHeld)
  else if faxBad a then (s, justCode .badArgument)
  else
    let v := applyFax a (s.fxSet.get l)
    ({ s with fxSet := s.fxSet.set l v }, .ok, .faxSettings v)

/-- SET_FAX (R147). -/
def execSetFax (h : CmdHead) (line : Nat) (a : FaxArgs) (s : State) : Host.Outcome State Fault Refusal :=
  .next (carryOut h (.setFax line a) (onLine line (setFaxBody h.port a)) s)

end Sys2Proof.Machine
end

