-- ==== Sys2Proof/Machine/Link.lean ====
section
/-! DEFINITION. The Checked Link's timers, plain operation and commands (spec 09). -/

namespace Sys2Proof.Machine

/-! ## Timers (R175, R179, R183) -/

/-- The 1500 ms CALL-UP interval expires: CALL-UP again up to three in all, then the setup ends unanswered (R175). DESIGN CHOICE, unsafe
(log 79): in RETRAINING the expiry is ignored. -/
def callUpExpiry (s : State) : State :=
  if s.cl.state ≠ .setup ∨ s.cw.setup ≠ .interval then s
  else if s.cw.callUps < 3 then sendCallUp s
  else setupUnanswered s

/-- CALL_UP_INTERVAL_EXPIRY (R175). -/
def execCallUpIntervalExpiry (s : State) : Host.Outcome State Fault Refusal := .next (event callUpExpiry s)

/-- CALL_UP_WAIT_EXPIRY: the answerer's 3000 ms wait ends the setup unanswered (R175). DESIGN CHOICE, unsafe (log 79): in RETRAINING the
expiry is ignored. -/
def execCallUpWaitExpiry (s : State) : Host.Outcome State Fault Refusal :=
  .next (event (fun s => if s.cl.state = .setup ∧ s.cw.setup = .wait then setupUnanswered s else s) s)

/-- REPLY_TIMER_EXPIRY (R179, R185). -/
def execReplyTimerExpiry (s : State) : Host.Outcome State Fault Refusal := .next (event replyExpiry s)

/-- PROPOSAL_TIMER_EXPIRY: a proposal whose timer runs is withdrawn (R183). -/
def execProposalTimerExpiry (s : State) : Host.Outcome State Fault Refusal :=
  .next (event (fun s => match s.cl.proposal with
    | some (_, .running) => s.updCl fun c => { c with proposal := none }
    | _ => s) s)

/-! ## Plain operation (R176) -/

/-- Octets pass in plain operation: not while the unit trains (R176). -/
def plainPasses (s : State) : Bool :=
  s.cl.state == .plain &&
    (match s.cl.line with
     | some l => (s.su.get l).plain && (s.su.get l).mode == .data && !(s.su.get l).training
     | none => false)

/-- The line of the link brings bits: its unit's carrier is PRESENT (R43). -/
def linkDelivers (s : State) : Bool :=
  match s.cl.line with
  | some l => (s.su.get l).delivers
  | none => false

/-- PLAIN_OCTET_RECEIVED: appended to the CP outbound buffer, or dropped and counted where it has no room (R176). -/
def execPlainOctetReceived (octet : Byte) (s : State) : Host.Outcome State Fault Refusal :=
  .next (event (fun s =>
    if plainPasses s ∧ linkDelivers s then
      (if 1 ≤ outSpace s then s.updOut .cp fun o => { o with buffer := o.buffer ++ [octet] }
       else s.updCl fun c => { c with dropped := c.dropped + 1 })
    else s) s)

/-- One octet of the CP inbound stream's buffer goes out on the link's line, past the Frame Channel: `wire` shows its bits (R43,
R176). -/
def sendPlainOctet (s : State) : State :=
  let r := takeInbound 1 s
  match s.cl.line with
  | some l => r.2.updFc l fun c => { c with wire := octetsBits r.1 }
  | none => r.2

/-- PLAIN_OCTET_SENT: one octet leaves the CP inbound stream's buffer; an emptied slot is granted again (R176, R192). -/
def execPlainOctetSent (s : State) : Host.Outcome State Fault Refusal :=
  .next (event (fun s => if plainPasses s ∧ 0 < inWaiting s then sendPlainOctet s else s) s)

/-! ## Delivery (R181, R182) -/

/-- The free space of the CP outbound buffer has grown: HOLD and READY are judged, and held frames that fit are delivered (R181,
R182). -/
def spaceGrown (s : State) : State :=
  if s.cl.state = .ended then s else deliverHeld 16 (judgeSpace s)

/-- DEFERRED_DELIVERY: a held payload is delivered once the free space suffices; a record that waited at the head of the receive
queue is taken in the looks that follow (R173, R181). -/
def execDeferredDelivery (s : State) : Host.Outcome State Fault Refusal := .next (event spaceGrown s)

/-! ## LINK OPEN and LINK CLOSE (R187) -/

/-- LINK OPEN on a line, its checks in order (R187); the PP's is refused before the controller is looked at (log 42). -/
def linkOpenBody (p : PortId) (role : Option LinkRole) (l : LineId) (s : State) : State × Result × ReplyBody :=
  if p = .pp then (s, justCode .wrongState)
  else match holdCheck p l s, role with
    | some r, _ => (s, justCode r)
    | none, none => (s, justCode .badArgument)
    | none, some r =>
      if canTurn l s = false then (s, justCode .wrongState)
      else if canTakeData s = false then (s, justCode .inUse)
      else (turnLine l .data .data (startLink l r) s, justCode .accepted)

/-- LINK_OPEN (R187). -/
def execLinkOpen (h : CmdHead) (line : Nat) (role : Option LinkRole) (s : State) : Host.Outcome State Fault Refusal :=
  .next (command h (.linkOpen line role) (onLine line (linkOpenBody h.port role)) s)

/-- LINK CLOSE (R187). -/
def linkCloseBody (p : PortId) (s : State) : State × Result × ReplyBody :=
  if p = .pp ∨ s.cl.state = .ended then (s, justCode .wrongState) else (closeLink s, justCode .ok)

/-- LINK_CLOSE (R187). -/
def execLinkClose (h : CmdHead) (s : State) : Host.Outcome State Fault Refusal :=
  .next (command h .linkClose (linkCloseBody h.port) s)

/-! ## LINK STATUS and SET LINK (R172, R188) -/

/-- The fields of LINK STATUS (R188). -/
def linkView (s : State) : LinkView :=
  let c := s.cl
  { state := c.state, returnState := c.returnState, role := c.role, line := c.line, window := c.window, payload := c.payload,
    ceiling := c.ceiling, rate := c.rate, quality := c.quality, s := c.s, v := c.v, outstanding := c.outstanding.map (·.n),
    ahead := c.ahead.map (·.n), retries := c.retries, peerBusy := c.peerBusy, ownBusy := c.ownBusy, bad := c.bads,
    goodRun := c.goodRun, proposal := c.proposal.map (·.1), built := c.built, sentAgain := c.sentAgain,
    octetsSent := c.octetsSent, octetsDelivered := c.octetsDelivered, dropped := c.dropped, outcome := c.outcome,
    counts := c.line.map fun l => (s.fc.get l).counts }

/-- LINK_STATUS (R188). -/
def execLinkStatus (h : CmdHead) (s : State) : Host.Outcome State Fault Refusal :=
  .next (carryOut h .linkStatus (fun s => (s, .ok, .link (linkView s))) s)

/-- SET LINK: the settings named change, and the reply carries them all (R172). -/
def setLinkBody (a : LinkArgs) (s : State) : State × Result × ReplyBody :=
  if a.plainFallback.isBad then (s, justCode .badArgument)
  else
    let v := applyLink a s.clSet
    ({ s with clSet := v }, .ok, .linkSettings v)

/-- SET_LINK (R172). -/
def execSetLink (h : CmdHead) (a : LinkArgs) (s : State) : Host.Outcome State Fault Refusal :=
  .next (carryOut h (.setLink a) (setLinkBody a) s)

end Sys2Proof.Machine
end

