-- ==== Sys2Proof/Machine/ResetOps.lean ====
section
/-! DEFINITION. What the RESET command, the release of STANDBYN and its assertion do to each block (spec 01 R26, R27; 02 R44; 03 R65;
04 R91, R92; 05 R111; 06 R131; 07 R145; 08 R170; 09 R189; 10 R197; 11 R206, R207). -/

namespace Sys2Proof.Machine

/-! ## The store (R91) -/

/-- The entries in a state, in creation order. -/
def Store.inState (q : EntryState) (st : Store) : List (Fin 128) :=
  sortOrder st (allNumbers.filter fun n => st.dir[n].state == q)

/-- Free each of a list of entries. -/
def Store.freeAll : List (Fin 128) → Store → Store
  | [], st => st
  | n :: ns, st => Store.freeAll ns (st.freeEntry n)

/-- A voice entry left in WRITING: complete with STOPPED if it holds 1 s, else discarded (R91). -/
def resetVoice (n : Fin 128) (s : State) : State :=
  let e := s.store.dir[n]
  if e.committed < Rate.hz (e.format.getD ⟨.q4, .r8000, none⟩).rate then s.updStore (Store.freeEntry n)
  else completeWrite n (some .stopped) s

/-- The pages of an entry. -/
def Store.pagesOf (n : Fin 128) (st : Store) : List (Fin 256 × PageEntry) := st.dir[n].pageList.map fun k => (k, st.pages[k])

/-- A FAX-IN entry left in WRITING (R91): a last page without committed bytes is lost, and what is left is complete, its last page
BAD if still PENDING. -/
def resetFaxIn (n : Fin 128) (s : State) : State :=
  let st := match (s.store.pagesOf n).getLast? with
    | some x => if s.store.dir[n].committed ≤ x.2.start then s.store.releasePage x.1 else s.store
    | none => s.store
  match (st.pagesOf n).getLast? with
  | none => s.updStore fun _ => st.freeEntry n
  | some x =>
    let st := if x.2.verdict = .pending then
        st.updPage x.1 fun p => { p with verdict := .bad, byteLength := st.dir[n].length - p.start } else st
    completeWrite n none (s.updStore fun _ => st)

/-- A FAX-OUT entry left in WRITING (R91): cut back to the end of its last complete page section. -/
def resetFaxOut (n : Fin 128) (s : State) : State :=
  let whole := fun (p : PageEntry) => p.verdict == .good && decide (p.start + p.byteLength ≤ s.store.dir[n].committed)
  let ps := s.store.pagesOf n
  let st := s.store.releasePages ((ps.filter fun x => !whole x.2).map (·.1))
  match (ps.filter fun x => whole x.2).getLast? with
  | none => s.updStore fun _ => st.freeEntry n
  | some x => completeWrite n none (s.updStore fun _ => st.cutBack n (x.2.start + x.2.byteLength))

/-- An entry left in WRITING: cut back to its committed length, TRUNCATED, and judged by its kind (R91). -/
def resetWrite (n : Fin 128) (s : State) : State :=
  let s := s.updStore fun st =>
    (st.cutBack n st.dir[n].committed).updDir n fun e => { e with truncated := true }
  match s.store.dir[n].kind with
  | .faxIn => resetFaxIn n s
  | .faxOut => resetFaxOut n s
  | _ => resetVoice n s

/-- The store at the RESET command (R91): its content kept, its users at rest. No port is READY then, so no notice is raised. DESIGN
CHOICE, unsafe (logs 18, 68): the DELETE-PENDING entries are freed and the WRITING ones judged in creation order. -/
def resetStore (s : State) : State :=
  let s := s.updStore fun st => { st with handles := [] }
  let s := s.updStore fun st => st.freeAll (st.inState .deletePending)
  forEach resetWrite (s.store.inState .writing) s

/-! ## The other blocks -/

/-- A line record at the RESET command (R26). -/
def resetLine (s : State) (l : LineId) : LineRec :=
  .atRest (s.lc.get l).policy (s.pins.loop.get l) (s.pins.ext.get l)

/-- A Signal Unit at the RESET command (R44). -/
def SignalUnit.atReset (u : SignalUnit) : SignalUnit :=
  { SignalUnit.initial with cadence := u.cadence, toneOnTime := u.toneOnTime, toneGapTime := u.toneGapTime,
                            lossTime := u.lossTime }

/-- A dialler at the RESET command (R65). -/
def Dialler.atReset (d : Dialler) : Dialler := ⟨{ d.record with phase := .idle, owner := none }, .none, false⟩

/-- The Voice Message Controller at the RESET command (R131). -/
def Vm.atReset (v : Vm) : Vm := { Vm.initial with accessCode := v.accessCode }

/-- The link record at the RESET command (R189). -/
def LinkRec.atReset (c : LinkRec) : LinkRec := { LinkRec.initial with outcome := c.outcome }

/-- Both ports by their PRESENT input and link, with empty queues and masks enabling every class (R206, R207). -/
def freshPorts (s : State) : PerPort PortCtl := ⟨.fresh s.pins.present, .fresh s.pins.ppLink⟩

/-- Both streams of both ports UNBOUND (R197). -/
def unboundStreams : PerPort Streams := ⟨⟨.unbound, .unbound⟩, ⟨.unbound, .unbound⟩⟩

/-- Every block as the RESET command sets it. The settings, the clock, queue time and the DRAM are kept. -/
def resetBlocks (s : State) : State :=
  let s := { s with
    pc := freshPorts s, lc := ⟨resetLine s .line0, resetLine s .line1⟩, su := ⟨s.su.line0.atReset, s.su.line1.atReset⟩,
    dq := ⟨s.dq.line0.atReset, s.dq.line1.atReset⟩, queue := Vector.replicate 8 .empty, createCounter := 0, finishCounter := 0,
    vp := ⟨.idle s.vp.l0.settings, .idle s.vp.l1.settings, .idle s.vp.loc.settings⟩, vm := s.vm.atReset,
    fc := ⟨.initial, .initial⟩, fx := ⟨.initial, .initial⟩, fw := ⟨.initial, .initial⟩, cl := s.cl.atReset, cw := .initial,
    st := unboundStreams }
  resetStore s

/-- STANDBYN asserted (R27, R44, R92, R111, R131, R145, R170, R189, R197, R207): the line records hold the values the RESET command
would give them, the sessions and the link end, the channels are unbound, and the ports' queues are emptied. The store, the
diallers, the queue, the contexts and the streams are kept and stand still. -/
def enterStandby (s : State) : State :=
  { s with
    standby := true, lc := ⟨resetLine s .line0, resetLine s .line1⟩, su := ⟨s.su.line0.atReset, s.su.line1.atReset⟩,
    vm := s.vm.atReset, fc := ⟨s.fc.line0.unbind, s.fc.line1.unbind⟩, fx := ⟨.initial, .initial⟩, fw := ⟨.initial, .initial⟩,
    cl := s.cl.atReset, cw := .initial,
    pc := ⟨{ PortCtl.fresh false with state := s.pc.cp.state, mask := s.pc.cp.mask },
           { PortCtl.fresh false with state := s.pc.pp.state, mask := s.pc.pp.mask }⟩ }

end Sys2Proof.Machine
end

