-- ==== Sys2Proof/Machine/Pins.lean ====
section
/-! DEFINITION. The pin events: RESETN, STANDBYN, PRESENT and the panel link (spec 01 R1, R27; 11 R199, R200, R207). -/

namespace Sys2Proof.Machine

/-- RESETN_RELEASE: every block at its reset values, by the inputs read at the release; the DRAM content is not cleared (R1, R28,
R45, R55, R66, R90, R93, R112, R132, R146, R171, R190, R199). -/
def execResetnRelease (pins : PinLevels) (s : State) : Host.Outcome State Fault Refusal :=
  .next (State.afterResetn pins s.store.dram s.pending)

/-- STANDBYN_ASSERT (R27). -/
def execStandbynAssert (s : State) : Host.Outcome State Fault Refusal :=
  .next (if s.standby then s else enterStandby s)

/-- STANDBYN_RELEASE: every block as the RESET command sets it, by the inputs at the release (R27). -/
def execStandbynRelease (s : State) : Host.Outcome State Fault Refusal :=
  .next (if s.standby then kick (resetBlocks { s with standby := false }) else s)

/-- The port's master is there: a DETACHED port becomes ATTACHED (R199). -/
def portArrives (p : PortId) (s : State) : State :=
  if (s.pc.get p).state = .detached then s.updPc p fun _ => .fresh true else s

/-- The port's master has gone: the port is DETACHED, leaving READY as R200 states; its queues are emptied (R199). -/
def portDeparts (p : PortId) (s : State) : State :=
  match (s.pc.get p).state with
  | .detached => s
  | .attached => s.updPc p fun _ => .fresh false
  | .ready => portLeaves p .detached s

/-- PRESENT_HIGH (R199). In standby only the level is kept, for the release (R207, log 41). -/
def execPresentHigh (s : State) : Host.Outcome State Fault Refusal :=
  let t := { s with pins := { s.pins with present := true } }
  .next (if s.standby then t else portArrives .cp t)

/-- PRESENT_LOW (R199, R200). -/
def execPresentLow (s : State) : Host.Outcome State Fault Refusal :=
  let t := { s with pins := { s.pins with present := false } }
  .next (event (portDeparts .cp) t)

/-- PP_LINK_UP (R199). -/
def execPpLinkUp (s : State) : Host.Outcome State Fault Refusal :=
  let t := { s with pins := { s.pins with ppLink := true } }
  .next (if s.standby then t else portArrives .pp t)

/-- PP_LINK_DOWN (R199, R200). -/
def execPpLinkDown (s : State) : Host.Outcome State Fault Refusal :=
  let t := { s with pins := { s.pins with ppLink := false } }
  .next (event (portDeparts .pp) t)

end Sys2Proof.Machine
end

