-- ==== Sys2Proof/Machine/StreamCmds.lean ====
section
/-! DEFINITION. The streams' commands and packets (spec 10). -/

namespace Sys2Proof.Machine

/-! ## DMA (R191, R193, R198) -/

/-- The DMA option as a command carries it: refused from the PP (R198), else on where it is named on. -/
def dmaOption (p : PortId) (a : Option Bool) : Option Bool :=
  match p, a with
  | .pp, some _ => none
  | _, some b => some b
  | _, none => some false

/-! ## WRITE (R191) -/

/-- The fields of the kind WRITE names: none for an unknown kind, a value out of its list, or a field of the other kinds
(R191, log 43). -/
def writeWhat (a : WriteArgs) : Option (Kind × Option (Fin 5) × Option VoiceFormat × Option (List Byte)) :=
  match a.kind with
  | none => none
  | some k =>
    if k.isVoice then
      match a.mailbox.bind (finOfNat 5), a.code, a.rate, a.station with
      | some m, some c, some r, none => some (k, some m, some ⟨c, r, none⟩, none)
      | _, _, _, _ => none
    else if k = .faxOut then
      match a.mailbox, a.code, a.rate, a.station with
      | none, none, none, none => some (k, none, none, none)
      | none, none, none, some t => if stationOk t then some (k, none, none, some t) else none
      | _, _, _, _ => none
    else none

/-- The inbound stream bound to a new entry's WRITE handle (R191). -/
def InStream.bound (k : Fin 4) (dma : Bool) : InStream :=
  { InStream.unbound with state := .active, binding := some (.handle k), credit := 8, dma := dma }

/-- WRITE, its checks in order (R191). -/
def writeBody (p : PortId) (a : WriteArgs) (s : State) : State × Result × ReplyBody :=
  match writeWhat a, dmaOption p a.dma with
  | some w, some dma =>
    if (s.st.get p).inb.state ≠ .unbound ∨ (dma ∧ (s.st.get p).outb.dma) then (s, justCode .inUse)
    else match s.store.freeHandle? p with
      | none => (s, justCode .noHandle)
      | some k =>
        match s.store.newEntry s.tod ⟨w.1, .port p, w.2.1, w.2.2.2, w.2.2.1, none, .port p k⟩ with
        | none => (s, justCode .noRoom)
        | some r =>
          (grant p 8 (changeIn p (fun _ => .bound k dma) (onStore (fun _ => r.2) s)), .ok, .written r.1 k)
  | _, _ => (s, justCode .badArgument)

/-- WRITE (R191). -/
def execWrite (h : CmdHead) (a : WriteArgs) (s : State) : Host.Outcome State Fault Refusal :=
  .next (command h (.write a) (writeBody h.port a) s)

/-! ## READ (R193) -/

/-- The outbound stream bound to a READ handle (R193): WAITING at the committed length of an entry in WRITING. -/
def OutStream.bound (k : Fin 4) (dma : Bool) (waits : Bool) : OutStream :=
  { OutStream.unbound with state := if waits then .waiting else .active, binding := some (.handle k), dma := dma }

/-- The start position seeks the handle (R76, R193). -/
def seekStart (h : Holder) (start : Option Nat) (s : State) : State :=
  match start with
  | none => s
  | some t => onStore (Store.seek h t) s

/-- Bind the outbound stream to an open READ handle (R193). -/
def startRead (p : PortId) (k : Fin 4) (start : Option Nat) (dma : Bool) (s : State) : State × Result × ReplyBody :=
  let s := seekStart (.port p k) start s
  match s.store.handle? (.port p k) with
  | none => (s, justCode .notFound)
  | some x =>
    let e := s.store.dir[x.entry]
    let waits := decide (e.state = .writing ∧ e.committed ≤ x.pos)
    (changeOut p (fun _ => .bound k dma waits) s, .ok, .position x.pos)

/-- READ, its checks in order (R193). -/
def readBody (p : PortId) (a : ReadArgs) (s : State) : State × Result × ReplyBody :=
  match finOfNat 4 a.handle, dmaOption p a.dma with
  | some k, some dma =>
    (match s.store.handle? (.port p k) with
     | none => (s, justCode .notFound)
     | some x =>
       if x.write then (s, justCode .wrongState)
       else if (s.st.get p).outb.state ≠ .unbound ∨ (dma ∧ (s.st.get p).inb.dma) then (s, justCode .inUse)
       else startRead p k a.start dma s)
  | _, _ => (s, justCode .badArgument)

/-- READ (R193). -/
def execRead (h : CmdHead) (a : ReadArgs) (s : State) : Host.Outcome State Fault Refusal :=
  .next (command h (.read a) (readBody h.port a) s)

/-! ## CLEAR STREAM and STREAM STATUS (R190, R196) -/

/-- A stream is ACTIVE for a link that exists: it cannot be cleared (R196). -/
def linkKeeps (st : StreamState) (b : Option Binding) (s : State) : Bool :=
  st == .active && b == some .link && s.cl.state != .ended

/-- CLEAR STREAM (R196). -/
def clearBody (p : PortId) (d : Dir) (s : State) : State × Result × ReplyBody :=
  match d with
  | .inbound =>
    let i := (s.st.get p).inb
    if i.state = .unbound then (s, justCode .wrongState)
    else if linkKeeps i.state i.binding s then (s, justCode .inUse)
    else (unbindIn p s, justCode .ok)
  | .outbound =>
    let o := (s.st.get p).outb
    if o.state = .unbound then (s, justCode .wrongState)
    else if linkKeeps o.state o.binding s then (s, justCode .inUse)
    else (unbindOut p s, justCode .ok)

/-- CLEAR_STREAM (R196). -/
def execClearStream (h : CmdHead) (dir : Dir) (s : State) : Host.Outcome State Fault Refusal :=
  .next (command h (.clearStream dir) (clearBody h.port dir) s)

/-- The handle of a stream's binding that is still open. -/
def boundHandle (p : PortId) (b : Option Binding) (s : State) : Option Handle :=
  match b with
  | some (.handle n) => s.store.handle? (.port p n)
  | _ => none

/-- The fields of STREAM STATUS (R190). -/
def streamView (p : PortId) (d : Dir) (s : State) : StreamView :=
  let t := s.st.get p
  let h := match d with
    | .inbound => inHandle p s
    | .outbound => boundHandle p t.outb.binding s
  let e := h.map fun x => s.store.dir[x.entry]
  match d with
  | .inbound =>
    { dir := d, state := t.inb.state, binding := t.inb.binding, credit := t.inb.credit, slots := t.inb.slots.length,
      held := t.inb.waiting, endSeen := t.inb.endSeen, halt := t.inb.halt, haltPending := false, dma := t.inb.dma,
      moved := t.inb.moved, entry := h.map (·.entry), position := h.map (·.pos), length := e.map (·.length),
      committed := e.map (·.committed) }
  | .outbound =>
    { dir := d, state := t.outb.state, binding := t.outb.binding, credit := t.outb.credit, slots := 0,
      held := t.outb.buffer.length, endSeen := false, halt := t.outb.halt, haltPending := t.outb.haltPending, dma := t.outb.dma,
      moved := t.outb.moved, entry := h.map (·.entry), position := h.map (·.pos), length := e.map (·.length),
      committed := e.map (·.committed) }

/-- STREAM_STATUS (R190). -/
def execStreamStatus (h : CmdHead) (dir : Dir) (s : State) : Host.Outcome State Fault Refusal :=
  .next (carryOut h (.streamStatus dir) (fun s => (s, .ok, .stream (streamView h.port dir s))) s)

/-! ## Packets from the master (R192, R194, R201) -/

/-- A stream packet crosses: the port is READY and its intake has not stopped (R201). -/
def streamCrosses (p : PortId) (s : State) : Bool :=
  isReady s p && decide ((s.pc.get p).cmdQueue.length < 4)

/-- What a STREAM-DATA packet does to an ACTIVE inbound stream (R192, R195): it sets end seen, halts the stream, or takes a chunk. -/
inductive DataIn where
  | ends
  | halts (r : HaltReason)
  | chunk
deriving DecidableEq, Repr

/-- How an ACTIVE inbound stream handles a packet (R192, R195). -/
def dataIn (i : InStream) (data : List Byte) (endMark : Bool) : DataIn :=
  if i.endSeen then .halts .badFormat
  else if endMark then (if data = [] ∧ i.binding ≠ some .link then .ends else .halts .badFormat)
  else if data = [] ∨ 64 < data.length then .halts .badFormat
  else if i.credit = 0 then .halts .creditExceeded
  else .chunk

/-- The stream with one chunk more (R192). -/
def InStream.takeChunk (data : List Byte) (i : InStream) : InStream :=
  { i with credit := i.credit - 1, slots := i.slots ++ [data] }

/-- The stream serves a link whose CP has left: it carries nothing until the link ends (R186, R195). -/
def linkForsaken (b : Option Binding) (s : State) : Bool := b == some .link && s.cw.departed

/-- A STREAM-DATA packet reaches the inbound stream; all its bytes have crossed the port (R190, R192). -/
def streamDataIn (p : PortId) (data : List Byte) (endMark : Bool) (s : State) : State :=
  let i := (s.st.get p).inb
  if i.state ≠ .active ∨ linkForsaken i.binding s then s
  else
    let s := s.updIn p fun i => { i with moved := i.moved + BitVec.ofNat 32 data.length }
    match dataIn i data endMark with
    | .ends => s.updIn p fun i => { i with endSeen := true }
    | .halts r => haltIn p r s
    | .chunk => parseChunk p data (s.updIn p (InStream.takeChunk data))

/-- STREAM_DATA_IN (R192, R201). -/
def execStreamDataIn (p : PortId) (data : List Byte) (endMark : Bool) (s : State) : Host.Outcome State Fault Refusal :=
  .next (event (fun s => if streamCrosses p s then streamDataIn p data endMark s else s) s)

/-- STREAM_CREDIT_IN: the grant joins the outbound credit, up to 255, in ACTIVE and WAITING (R194). -/
def execStreamCreditIn (p : PortId) (grant : Byte) (s : State) : Host.Outcome State Fault Refusal :=
  .next (event (fun s =>
    if streamCrosses p s ∧ (s.st.get p).outb.state.running then
      s.updOut p fun o => { o with credit := min 255 (o.credit + grant.toNat) }
    else s) s)

/-! ## Packets to the master (R194, R195) -/

/-- The outbound stream sends a packet of the oldest bytes, up to 64 (R194). -/
def sendPacket (p : PortId) (s : State) : State :=
  let bs := (s.st.get p).outb.buffer.take 64
  let s := s.updPc p fun c => { c with dataOut := c.dataOut ++ [⟨bs, false⟩] }
  s.updOut p fun o =>
    { o with buffer := o.buffer.drop 64, credit := o.credit - 1, moved := o.moved + BitVec.ofNat 32 bs.length }

/-- A halt that waited for the buffer to be empty takes place (R195). -/
def pendingHalt (p : PortId) (s : State) : State :=
  let o := (s.st.get p).outb
  if o.haltPending ∧ o.buffer = [] then haltOut p .linkEnded s else s

/-- A packet has left the outbound buffer: the link judges the free space (R182), a pending halt may take place (R195). -/
def afterPacket (p : PortId) (s : State) : State :=
  pendingHalt p (if (s.st.get p).outb.binding = some .link then spaceGrown s else s)

/-- STREAM_DATA_OUT: with credit and bytes, a packet is sent (R194). The end mark needs no credit and follows of itself. -/
def execStreamDataOut (p : PortId) (s : State) : Host.Outcome State Fault Refusal :=
  .next (event (fun s =>
    let o := (s.st.get p).outb
    if isReady s p ∧ o.state.running ∧ 1 ≤ o.credit ∧ o.buffer ≠ [] then afterPacket p (sendPacket p s) else s) s)

/-- A WAITING stream can go on: the committed length has passed its position, or the entry is no longer in WRITING (R193). -/
def canResume (p : PortId) (s : State) : Bool :=
  match outHandle p s with
  | some h =>
    (s.st.get p).outb.state == .waiting &&
      decide (h.pos < s.store.dir[h.entry].committed ∨ s.store.dir[h.entry].state ≠ .writing)
  | none => false

/-- STREAM_RESUME (R193). -/
def execStreamResume (p : PortId) (s : State) : Host.Outcome State Fault Refusal :=
  .next (event (fun s => if canResume p s then changeOut p (fun o => { o with state := .active }) s else s) s)

end Sys2Proof.Machine
end

