-- ==== Sys2Proof/Machine/Ports.lean ====
section
/-! DEFINITION. The control ports' packets and their own commands (spec 11). -/

namespace Sys2Proof.Machine

/-! ## Packets (R201, R202) -/

/-- COMMAND_PACKET_ARRIVAL: the packet joins the command queue, in ATTACHED and READY, unless intake has stopped (R201). -/
def execCommandPacketArrival (p : PortId) (tag : BitVec 8) (argsOk : Bool) (c : Command) (s : State) :
    Host.Outcome State Fault Refusal :=
  .next (if s.standby ∨ (s.pc.get p).state = .detached then s else queueCommand p ⟨tag, argsOk, c⟩ s)

/-- A header that leaves the controller unable to find the next packet: a kind that is none of the five, or a length above 4096
(R201). -/
def badHeader (kind : Byte) (length : Nat) : Bool :=
  decide (kind.toNat = 0 ∨ 5 < kind.toNat ∨ 4096 < length)

/-- A bad header arrives (R201). -/
def takeBadHeader (p : PortId) (s : State) : State :=
  match (s.pc.get p).state with
  | .detached => s
  | .attached => s.updPc p fun _ => .fresh true
  | .ready => portLeaves p .attached s

/-- BAD_PACKET_HEADER (R201). -/
def execBadPacketHeader (p : PortId) (kind : Byte) (length : Nat) (s : State) : Host.Outcome State Fault Refusal :=
  .next (event (fun s =>
    if badHeader kind length ∧ (s.pc.get p).cmdQueue.length < 4 then takeBadHeader p s else s) s)

/-- UNKNOWN_COMMAND: answered BAD-COMMAND, and nothing changes (R202). -/
def execUnknownCommand (h : CmdHead) (name : List Byte) (s : State) : Host.Outcome State Fault Refusal :=
  .next (carryOut h (.unknown name) (fun s => (s, justCode .badCommand)) s)

/-! ## Reading (R202, R205) -/

/-- The head of the reply queue after a packet of it has been read: its REPLY first, then its NOTICE. -/
def readHead : List ReplyEntry → List ReplyEntry
  | [] => []
  | ⟨some _, some n⟩ :: es => ⟨none, some n⟩ :: es
  | _ :: es => es

/-- The stream packet that crosses next: the two streams' packets alternate (R202). -/
def readStream (c : PortCtl) : PortCtl :=
  let credit := { c with creditOut := c.creditOut.tail, lastStream := .inbound }
  let data := { c with dataOut := c.dataOut.tail, lastStream := .outbound }
  match c.creditOut, c.dataOut, c.lastStream with
  | [], [], _ => c
  | _ :: _, [], _ => credit
  | [], _ :: _, _ => data
  | _ :: _, _ :: _, .inbound => data
  | _ :: _, _ :: _, .outbound => credit

/-- The master reads the packet that waits: a REPLY goes before the stream packets (R202). -/
def PortCtl.read (c : PortCtl) : PortCtl :=
  if c.replyQueue = [] then readStream c else { c with replyQueue := readHead c.replyQueue }

/-- REPLY_READ (R202, R205). -/
def execReplyRead (p : PortId) (s : State) : Host.Outcome State Fault Refusal :=
  .next (if s.standby ∨ (s.pc.get p).state = .detached then s else s.updPc p PortCtl.read)

/-! ## HELLO and IDENTIFY (R203) -/

/-- The fields of IDENTIFY (R203). -/
def identity (p : PortId) (s : State) : ReplyBody :=
  .identity Config.vendorName Config.partName Config.designRevision (s.store.nBlocks * Config.blockBytes) s.store.nBlocks p
    (s.pc.get p).state

/-- An ATTACHED port enters READY with an empty notice queue, every class enabled and no change flags (R203). -/
def enterReady (p : PortId) (s : State) : State :=
  if (s.pc.get p).state = .attached then
    forEach (clearChanges p) allLines
      (s.updPc p fun c => { c with state := .ready, noticeQueue := [], mask := allClasses })
  else s

/-- HELLO (R203). -/
def execHello (h : CmdHead) (s : State) : Host.Outcome State Fault Refusal :=
  .next (command h .hello (fun s => let t := enterReady h.port s; (t, .ok, identity h.port t)) s)

/-- IDENTIFY (R203). -/
def execIdentify (h : CmdHead) (s : State) : Host.Outcome State Fault Refusal :=
  .next (carryOut h .identify (fun s => (s, .ok, identity h.port s)) s)

/-! ## Notices (R203, R205) -/

/-- The classes a SET NOTICES names, or none where one is unknown. -/
def classesOf : List (Option NoticeClass) → Option (List NoticeClass)
  | [] => some []
  | some x :: xs => (classesOf xs).map (x :: ·)
  | none :: _ => none

/-- The controller with a new mask: pending entries of a masked class are removed (R203). -/
def PortCtl.setMask (cs : List NoticeClass) (c : PortCtl) : PortCtl :=
  let mask := allClasses.filter fun x => cs.contains x
  { c with mask := mask, noticeQueue := c.noticeQueue.filter fun n => mask.contains n.cls }

/-- SET NOTICES (R203). -/
def setNoticesBody (p : PortId) (classes : List (Option NoticeClass)) (s : State) : State × Result × ReplyBody :=
  match classesOf classes with
  | none => (s, justCode .badArgument)
  | some cs => (s.updPc p (PortCtl.setMask cs), justCode .ok)

/-- SET_NOTICES (R203). -/
def execSetNotices (h : CmdHead) (classes : List (Option NoticeClass)) (s : State) : Host.Outcome State Fault Refusal :=
  .next (carryOut h (.setNotices classes) (setNoticesBody h.port classes) s)

/-- The voice report of a context as it stands (R125). -/
def reportView (c : CtxId) (s : State) : ReportView :=
  let r := s.vm.report.get c
  { phase := (lineOfCtx c).map fun l => (s.vm.session.get l).phase, report := r,
    length := r.entry.map fun n => s.store.dir[n].length }

/-- The NOTICE packet of a notice: a VOICE notice carries its context's report (R205). -/
def noticePacket (tag : BitVec 8) (n : Notice) (s : State) : NoticePacket :=
  { tag := tag, notice := n,
    voice := match n.cls, n.subject with
      | .voice, .ctx c => some (reportView c s)
      | _, _ => none }

/-- READ NOTICE answers with the number of notices left, and takes the head (R205). -/
def readNoticeBody (p : PortId) (s : State) : State × Result × ReplyBody :=
  let t := s.updPc p fun c => { c with noticeQueue := c.noticeQueue.tail }
  (t, .ok, .pending (t.pc.get p).noticeQueue.length)

/-- Put a NOTICE behind the REPLY of the last entry of a reply queue (R205). -/
def withNotice (n : NoticePacket) : List ReplyEntry → List ReplyEntry
  | [] => []
  | [e] => [{ e with notice := some n }]
  | e :: es => e :: withNotice n es

/-- A READ NOTICE is carried out now, not queued and not refused (R201, R202). -/
def readsNotice (h : CmdHead) (s : State) : Bool :=
  (intake h .readNotice s == .direct || intake h .readNotice s == .fromQueue) && isReady s h.port && h.argsOk

/-- READ_NOTICE (R205). -/
def execReadNotice (h : CmdHead) (s : State) : Host.Outcome State Fault Refusal :=
  let t := carryOut h .readNotice (readNoticeBody h.port) s
  .next (match readsNotice h s, (s.pc.get h.port).noticeQueue with
    | true, n :: _ => t.updPc h.port fun c => { c with replyQueue := withNotice (noticePacket h.tag n s) c.replyQueue }
    | _, _ => t)

/-! ## RESET and RESET PORT (R206, R207) -/

/-- RESET: every block is reset, and the requesting port holds the OK reply alone (R206). -/
def execReset (h : CmdHead) (s : State) : Host.Outcome State Fault Refusal :=
  .next (command h .reset (fun s => (resetBlocks s, justCode .ok)) s)

/-- RESET_PORT: the port leaves READY and holds the OK reply alone (R207). -/
def execResetPort (h : CmdHead) (s : State) : Host.Outcome State Fault Refusal :=
  .next (command h .resetPort (fun s => (portLeaves h.port .attached s, justCode .ok)) s)

end Sys2Proof.Machine
end

