-- ==== Sys2Proof/Machine/StoreCmds.lean ====
section
/-! DEFINITION. The Message Store's commands, the clock and the memory arbiter's events (spec 04). -/

namespace Sys2Proof.Machine

/-! ## Entry numbers -/

/-- A command on a directory entry: BAD-ARGUMENT above 127, NOT-FOUND for a FREE or DELETE-PENDING entry (R74, R80, R83, R84). -/
def onEntry (n : Nat) (body : Fin 128 → State → State × Result × ReplyBody) (s : State) : State × Result × ReplyBody :=
  match finOfNat 128 n with
  | none => (s, justCode .badArgument)
  | some k =>
    match s.store.dir[k].state with
    | .free => (s, justCode .notFound)
    | .deletePending => (s, justCode .notFound)
    | _ => body k s

/-! ## OPEN, CLOSE, DELETE (R74, R79, R80) -/

/-- OPEN on an entry (R74). -/
def openBody (p : PortId) (n : Fin 128) (s : State) : State × Result × ReplyBody :=
  let e := s.store.dir[n]
  if e.kind = .callNote then (s, justCode .wrongState)
  else match s.store.freeHandle? p with
    | none => (s, justCode .noHandle)
    | some k => (onStore (Store.openHandle ⟨.port p k, n, false, 0⟩) s, .ok, .opened k e.kind e.state e.length e.committed)

/-- OPEN (R74). -/
def execOpenEntry (h : CmdHead) (entry : Nat) (s : State) : Host.Outcome State Fault Refusal :=
  .next (carryOut h (.openEntry entry) (onEntry entry (openBody h.port)) s)

/-- A port's handle is bound to one of its streams (R79). -/
def handleBound (p : PortId) (n : Fin 4) (s : State) : Bool :=
  let t := s.st.get p
  t.outb.binding == some (.handle n) || (t.inb.binding == some (.handle n) && t.inb.state == .active)

/-- CLOSE of a port's handle (R79). -/
def closeBody (p : PortId) (n : Nat) (s : State) : State × Result × ReplyBody :=
  match finOfNat 4 n with
  | none => (s, justCode .badArgument)
  | some k =>
    if s.store.handle? (.port p k) = none then (s, justCode .notFound)
    else if handleBound p k s then (s, justCode .inUse)
    else (onStore (Store.closeHandle (.port p k)) s, justCode .ok)

/-- CLOSE (R79). -/
def execClose (h : CmdHead) (handle : Nat) (s : State) : Host.Outcome State Fault Refusal :=
  .next (carryOut h (.close handle) (closeBody h.port handle) s)

/-- The port's WRITE handle on an entry, if it has one. -/
def portWrites (p : PortId) (n : Fin 128) (s : State) : Bool :=
  match inHandle p s with
  | some k => k.entry == n && k.write
  | none => false

/-- DELETE (R80). -/
def deleteBody (p : PortId) (n : Fin 128) (s : State) : State × Result × ReplyBody :=
  let e := s.store.dir[n]
  if e.guarded then (s, justCode .guarded)
  else if e.state = .writing then
    (if portWrites p n s then (unbindIn p s, justCode .ok) else (s, justCode .busy))
  else (deleteEntry n s, justCode .ok)

/-- DELETE (R80). -/
def execDelete (h : CmdHead) (entry : Nat) (s : State) : Host.Outcome State Fault Refusal :=
  .next (command h (.delete entry) (onEntry entry (deleteBody h.port)) s)

/-! ## Marks (R83) -/

/-- A mark on a COMPLETE entry of a kind the command takes (R83). -/
def markBody (takes : Kind → Bool) (f : DirEntry → DirEntry) (n : Fin 128) (s : State) : State × Result × ReplyBody :=
  let e := s.store.dir[n]
  if e.state = .writing then (s, justCode .wrongState)
  else if takes e.kind = false then (s, justCode .badArgument)
  else (onStore (fun st => st.updDir n f) s, justCode .ok)

/-- The kinds that carry REVIEWED for the masters (R83). -/
def reviewable : Kind → Bool
  | .voice => true
  | .faxIn => true
  | .callNote => true
  | _ => false

/-- PROTECT (R83). -/
def execProtect (h : CmdHead) (entry : Nat) (on : Bool) (s : State) : Host.Outcome State Fault Refusal :=
  .next (carryOut h (.protect entry on)
    (onEntry entry (markBody (fun _ => true) fun e => { e with guarded := on })) s)

/-- MARK_REVIEWED (R83). -/
def execMarkReviewed (h : CmdHead) (entry : Nat) (s : State) : Host.Outcome State Fault Refusal :=
  .next (carryOut h (.markReviewed entry)
    (onEntry entry (markBody reviewable fun e => { e with reviewed := true })) s)

/-- MARK_UNREVIEWED (R83). -/
def execMarkUnreviewed (h : CmdHead) (entry : Nat) (s : State) : Host.Outcome State Fault Refusal :=
  .next (carryOut h (.markUnreviewed entry)
    (onEntry entry (markBody reviewable fun e => { e with reviewed := false })) s)

/-! ## The store as a whole (R73, R84, R85) -/

/-- The fields of STORE STATUS (R73). -/
def storeView (s : State) : StoreView :=
  let st := s.store
  { bytes := st.nBlocks * Config.blockBytes, nBlocks := st.nBlocks, free := st.free, reserve := st.reserve,
    freeEntries := (st.dir.toList.filter fun e => e.state == .free).length,
    freePages := (st.pages.toList.filter fun p => !p.inUse).length, counts := st.newCounts, handles := st.handles.length,
    clockSet := s.tod.isSet }

/-- STORE_STATUS (R73). -/
def execStoreStatus (h : CmdHead) (s : State) : Host.Outcome State Fault Refusal :=
  .next (carryOut h .storeStatus (fun s => (s, .ok, .store (storeView s))) s)

/-- SET_RESERVE (R73). -/
def execSetReserve (h : CmdHead) (blocks : Nat) (s : State) : Host.Outcome State Fault Refusal :=
  .next (carryOut h (.setReserve blocks)
    (fun s => (onStore (fun st => { st with reserve := clampNat 0 255 blocks }) s, justCode .ok)) s)

/-- A handle is open or an entry is in WRITING (R85). -/
def storeInUse (st : Store) : Bool := !st.handles.isEmpty || (st.dir.toList.any fun e => e.state == .writing)

/-- In each class of the arbiter's rotation the last client counts as served last (R66). -/
def Arbiter.fromTheTop (a : Arbiter) : Arbiter :=
  { a with lastLine := Arbiter.initial.lastLine, lastStream := Arbiter.initial.lastStream }

/-- ERASE_STORE: formatted empty as R66 states, the arbiter's rotation with it, the reserve kept (R85). -/
def execEraseStore (h : CmdHead) (s : State) : Host.Outcome State Fault Refusal :=
  .next (carryOut h .eraseStore (fun s =>
    if storeInUse s.store then (s, justCode .busy)
    else (onStore (fun st => .formatted st.nBlocks st.reserve st.dram) { s with arb := s.arb.fromTheTop }, justCode .ok)) s)

/-- One entry of LIST MESSAGES (R84). -/
def messageView (st : Store) (n : Fin 128) : MessageView :=
  let e := st.dir[n]
  { number := n, seqNo := e.seqNo, kind := e.kind, state := e.state, mailbox := e.mailbox, source := e.source, stamp := e.stamp,
    length := e.length, committed := e.committed, reviewed := e.reviewed, truncated := e.truncated, guarded := e.guarded }

/-- The entry is listed, and matches the kind and mailbox named (R84). DESIGN CHOICE, unsafe (log 64): a mailbox above 4 matches none. -/
def listedBy (kind : Option Kind) (mailbox : Option Nat) (e : DirEntry) : Bool :=
  (e.state == .writing || e.state == .complete) && (match kind with | none => true | some k => e.kind == k) &&
    (match mailbox with | none => true | some m => e.mailbox.map (·.val) == some m)

/-- The listed entries in creation order (R84). -/
def messageViews (kind : Option Kind) (mailbox : Option Nat) (st : Store) : List MessageView :=
  (sortOrder st (allNumbers.filter fun n => listedBy kind mailbox st.dir[n])).map (messageView st)

/-- LIST_MESSAGES (R84). -/
def execListMessages (h : CmdHead) (kind : Option Kind) (mailbox : Option Nat) (s : State) :
    Host.Outcome State Fault Refusal :=
  .next (carryOut h (.listMessages kind mailbox) (fun s => (s, .ok, .messages (messageViews kind mailbox s.store))) s)

/-- One page of MESSAGE INFO (R84, Table 4-3). -/
def pageView (e : DirEntry) (p : PageEntry) : PageView :=
  ⟨p, (e.blocks[p.start / Config.blockBytes]?).map (·.num), p.start % Config.blockBytes⟩

/-- The fields of MESSAGE INFO (R84). -/
def infoView (st : Store) (n : Fin 128) : InfoView :=
  let e := st.dir[n]
  { number := n, entry := { e with blocks := [] }, handles := st.openCount n,
    pages := if e.kind.isFax then e.pageList.map fun k => pageView e st.pages[k] else [] }

/-- MESSAGE_INFO (R84). -/
def execMessageInfo (h : CmdHead) (entry : Nat) (s : State) : Host.Outcome State Fault Refusal :=
  .next (carryOut h (.messageInfo entry) (onEntry entry fun n s => (s, .ok, .info (infoView s.store n))) s)

/-! ## The clock (R89, R90) -/

/-- SET_CLOCK (R89). -/
def execSetClock (h : CmdHead) (a : ClockArgs) (s : State) : Host.Outcome State Fault Refusal :=
  .next (carryOut h (.setClock a) (fun s => ({ s with tod := ⟨clockOf a, true⟩ }, justCode .ok)) s)

/-- READ_CLOCK (R89). -/
def execReadClock (h : CmdHead) (s : State) : Host.Outcome State Fault Refusal :=
  .next (carryOut h .readClock (fun s => (s, .ok, .clock s.tod.time s.tod.isSet)) s)

/-- One second later, with carries (R89). -/
def ClockTime.tick (t : ClockTime) : ClockTime :=
  if t.second < 59 then { t with second := t.second + 1 }
  else if t.minute < 59 then { t with second := 0, minute := t.minute + 1 }
  else if t.hour < 23 then { t with second := 0, minute := 0, hour := t.hour + 1 }
  else if t.day < monthLength t.month then { t with second := 0, minute := 0, hour := 0, day := t.day + 1 }
  else ⟨if t.month < 12 then t.month + 1 else 1, 1, 0, 0, 0⟩

/-- CLOCK_TICK, standby included (R89, R90). -/
def execClockTick (s : State) : Host.Outcome State Fault Refusal :=
  .next { s with tod := { s.tod with time := s.tod.time.tick } }

/-! ## The arbiter (R87, R88) -/

/-- The burst in progress is over. -/
def clearBurst (v : Service) (s : State) : State := markBurst v false { s with arb := { s.arb with current := none } }

/-- The burst names a block the DRAM does not have. -/
def burstOutside (s : State) (v : Service) : Bool :=
  match burstBlock s v with
  | some b => decide (s.store.nBlocks ≤ b)
  | none => false

/-- BURST_END: the burst takes effect if its client still needs it, and the next is chosen (R87). In standby only refresh is served
(R92). A burst of a block the DRAM does not have faults (log 38). -/
def execBurstEnd (s : State) : Host.Outcome State Fault Refusal :=
  match s.arb.current with
  | none => .next s
  | some v =>
    if s.standby then .next (kick (clearBurst v s))
    else if burstOutside s v then .fault .outsideDram
    else .next (follow (fun s => if burstServes v s then burstEffect v (clearBurst v s) else clearBurst v s) s)

/-- REFRESH_REQUEST: pending until the burst in progress ends (R87). -/
def execRefreshRequest (s : State) : Host.Outcome State Fault Refusal :=
  .next (kick { s with arb := { s.arb with refresh := true } })

/-- A recording's full block can be turned: not while the samples after a LATE block are being dropped, until one block's worth
has been (R88). -/
def VoiceCtx.turnDue (v : VoiceCtx) : Bool :=
  v.isFull && (match v.lateDrop with | none => true | some k => decide (blockSamples v.format.code ≤ k))

/-- A voice context turns to its other buffer (R88); a playback that waits turns when it goes on (R106). -/
def voiceTurn (c : CtxId) (s : State) : State :=
  let v := s.vp.get c
  match v.activity with
  | .idle => s
  | .recording => if v.turnDue then recordTurn c s else s
  | .playing => if v.usedUp ∧ v.waiting = false then playTurn c s else s

/-- BUFFER_TURN (R88). -/
def execBufferTurn (c : LineClient) (s : State) : Host.Outcome State Fault Refusal :=
  .next (event (fun s => match c with
    | .voice k => voiceTurn k s
    | .fax l => faxTurn l s) s)

end Sys2Proof.Machine
end

