-- ==== Sys2Proof/Machine/SampleOps.lean ====
section
/-! DEFINITION. One line sample (spec 05 R96 to R106, R110; 02 R37): what a context makes of it, and what the codecs are sent. -/

namespace Sys2Proof.Machine

/-! ## What a line codec is sent (R37, Table 2-2) -/

/-- What a Signal Unit sends when the voice path gives it a play sample and the Frame Channel its bits: a tone being generated and
the silence of its gap come first (R37); plain operation bypasses the channel, with ones between octets (R43, R176, Table 2-2). -/
def SignalUnit.sends (x : Int) (bits : Steady) (u : SignalUnit) : Sent :=
  match u.generation with
  | some g => if g.sounds u.sampleClock then .tone g.tone else .sample 0
  | none =>
    if u.training then .training
    else if isBitMode u.mode then .modulated (if u.plain then .ones else bits)
    else if u.mode = .voice then .sample x
    else .sample 0

/-- A line's codec is sent what its unit makes of a play sample. -/
def sendLine (l : LineId) (x : Int) (s : State) : State :=
  s.updVm fun v => { v with lineOut := v.lineOut.set l ((s.su.get l).sends x (s.fc.get l).steady) }

/-- The desk speaker is sent a sample. -/
def sendSpeaker (x : Int) (s : State) : State := s.updVm fun v => { v with speakerOut := x }

/-! ## Recording one sample (R96 to R103) -/

/-- Hand the resampler's outputs to the coder. -/
def recordOutputs (c : CtxId) : List Int → State → State
  | [], s => s
  | z :: zs, s => recordOutputs c zs (recordOutput c z s)

/-- The gained sample enters the silence measure, the prefilter and the resampler; the outputs that come of it. -/
def VoiceCtx.intake (y : Int) (v : VoiceCtx) : VoiceCtx × List Int :=
  let p := prefilter v.format.rate v.hist y
  let r := resampleRun 4 (recordStep v.format.rate) (v.held ++ p.2) v.pos
  ({ v with frameSum := v.frameSum + y.natAbs, frameCount := v.frameCount + 1, lineCount := v.lineCount + 1, hist := p.1,
            held := r.1, pos := r.2.1 }, r.2.2)

/-- A recording context takes a line sample. -/
def recordSample (c : CtxId) (x : Int) (s : State) : State :=
  let r := (s.vp.get c).intake (gain (s.vp.get c).settings.recGain x)
  recordOutputs c r.2 (s.updCtx c fun _ => r.1)

/-! ## What is due before the next sample (log 14) -/

/-- The recording has reached its maximum length (Table 6-3). -/
def VoiceCtx.atMaxLength (v : VoiceCtx) : Bool :=
  v.activity == .recording && decide (v.maxLength ≠ 0 ∧ v.maxLength * 9600 ≤ v.lineCount)

/-- A frame of 192 samples is complete (R97). -/
def VoiceCtx.atFrameEnd (v : VoiceCtx) : Bool := v.activity == .recording && decide (192 ≤ v.frameCount)

/-- The playback has nothing more to fetch: its entry is no longer in WRITING and its last block has been used up (R105). -/
def nothingLeft (c : CtxId) (s : State) : Bool :=
  match playHandle c s with
  | none => false
  | some h =>
    let e := s.store.dir[h.entry]
    (s.vp.get c).usedUp && (s.vp.get c).other.block.isNone && decide (e.committed ≤ h.pos) && e.state != .writing

/-- Note that a playback has come to its end. -/
def noteEnd (c : CtxId) (s : State) : State :=
  if (s.vp.get c).activity = .playing ∧ nothingLeft c s then s.updCtx c fun v => { v with ended := true, waiting := false } else s

/-- The end of a playback, once it has given its last output (R105). -/
def endIfPlayedOut (c : CtxId) (s : State) : State :=
  let t := noteEnd c s
  if (t.vp.get c).playedOut then playbackEnds c t else s

/-- The frame end, the block turn, the maximum length or the end of the message that the samples so far have brought about (log 14).
DESIGN CHOICE, unsafe (log 72): those that one sample has brought about together take effect in this order. -/
def catchUp (c : CtxId) (s : State) : State :=
  let s := if (s.vp.get c).atFrameEnd then frameEnds c s else s
  let s := if (s.vp.get c).activity = .recording ∧ (s.vp.get c).turnDue then recordTurn c s else s
  let s := if (s.vp.get c).atMaxLength then recordingStops c .maxLength 0 s else s
  if (s.vp.get c).activity = .playing then endIfPlayedOut c s else s

/-! ## One sample (R93, R96, R110) -/

/-- The play sample of a playing context, after the play gain (R96, R105). -/
def playSample (c : CtxId) (s : State) : State × Int :=
  let r := playOutput c s
  (r.1, gain (r.1.vp.get c).settings.playGain r.2)

/-- A line context's sample: the incoming one is recorded, screened or bridged, and the outgoing one is sent. -/
def lineSampleOf (l : LineId) (x : Int) (s : State) : State :=
  let c := ctxOf l
  let s := s.updSu l fun u => { u with sampleClock := u.sampleClock + 1 }
  let toSpeaker := gain s.vp.loc.settings.playGain x
  let s := if s.vm.holder = .screen l ∨ s.vm.holder = .bridge l then sendSpeaker toSpeaker s else s
  match (s.vp.get c).activity with
  | .recording => recordSample c x (sendLine l 0 s)
  | .playing => (let r := playSample c s; sendLine l r.2 r.1)
  | .idle => sendLine l (if s.vm.holder = .bridge l then s.vm.micOut else 0) s

/-- LOCAL's sample: the microphone is recorded or bridged, and the speaker sent what is played. -/
def localSampleOf (x : Int) (s : State) : State :=
  match s.vp.loc.activity with
  | .recording => recordSample .loc x (sendSpeaker 0 s)
  | .playing => (let r := playSample .loc s; sendSpeaker r.2 r.1)
  | .idle =>
    match s.vm.holder with
    | .bridge _ => s.updVm fun v => { v with micOut := gain s.vp.loc.settings.recGain x }
    | .screen _ => s
    | _ => sendSpeaker 0 s

/-- A codec frame sync of a context. -/
def oneSample (c : CtxId) (x : Int) (s : State) : State :=
  let s := catchUp c s
  match lineOfCtx c with
  | some l => lineSampleOf l x s
  | none => localSampleOf x s

end Sys2Proof.Machine
end

