-- ==== Sys2Proof/Machine/Voice.lean ====
section
/-! DEFINITION. The voice path's events and SET VOICE (spec 05), and the recording's own stops (06 Table 6-3). -/

namespace Sys2Proof.Machine

/-- LINE_SAMPLE: one sample of a context's codec (R96, R110). -/
def execLineSample (c : CtxId) (x : BitVec 16) (s : State) : Host.Outcome State Fault Refusal :=
  .next (event (oneSample c (sampleOf x)) s)

/-- FRAME_END (R97). -/
def execFrameEnd (c : CtxId) (s : State) : Host.Outcome State Fault Refusal :=
  .next (event (fun s => if (s.vp.get c).atFrameEnd then frameEnds c s else s) s)

/-- MAX_LENGTH_REACHED (R118). -/
def execMaxLengthReached (c : CtxId) (s : State) : Host.Outcome State Fault Refusal :=
  .next (event (fun s => if (s.vp.get c).atMaxLength then recordingStops c .maxLength 0 s else s) s)

/-- VOICE_BLOCK_FULL (R103). -/
def execVoiceBlockFull (c : CtxId) (s : State) : Host.Outcome State Fault Refusal :=
  .next (event (fun s =>
    if (s.vp.get c).activity = .recording ∧ (s.vp.get c).turnDue then recordTurn c s else s) s)

/-- PLAYBACK_END (R105). -/
def execPlaybackEnd (c : CtxId) (s : State) : Host.Outcome State Fault Refusal :=
  .next (event (endIfPlayedOut c) s)

/-- A waiting playback goes on once the committed length has advanced past its position, or its entry has left WRITING (R106). -/
def resumePlayback (c : CtxId) (s : State) : State :=
  match playHandle c s with
  | none => s
  | some h =>
    let e := s.store.dir[h.entry]
    if (s.vp.get c).activity = .playing ∧ (s.vp.get c).waiting ∧ (h.pos < e.committed ∨ e.state ≠ .writing) then
      fetchNext c (s.updCtx c fun v => { v with waiting := false, primed := false })
    else s

/-- PLAYBACK_RESUME (R106). -/
def execPlaybackResume (c : CtxId) (s : State) : Host.Outcome State Fault Refusal :=
  .next (event (resumePlayback c) s)

/-- The other port controls the line of a context. -/
def heldByOther (p : PortId) (c : CtxId) (s : State) : Bool :=
  match lineOfCtx c with
  | some l => (s.lc.get l).controller == .port (otherPort p)
  | none => false

/-- SET VOICE on a context (R94, R113). -/
def setVoiceBody (p : PortId) (c : Option CtxId) (a : VoiceArgs) (s : State) : State × Result × ReplyBody :=
  match c with
  | none => (s, justCode .badArgument)
  | some c =>
    if heldByOther p c s then (s, justCode .lineHeld)
    else if voiceBad c a then (s, justCode .badArgument)
    else
      let t := s.updCtx c fun v => { v with settings := applyVoice a v.settings }
      (t, .ok, .voice (t.vp.get c).settings)

/-- SET_VOICE (R94, R113). -/
def execSetVoice (h : CmdHead) (context : Option CtxId) (a : VoiceArgs) (s : State) : Host.Outcome State Fault Refusal :=
  .next (command h (.setVoice context a) (setVoiceBody h.port context a) s)

end Sys2Proof.Machine
end

