-- ==== Sys2Proof/Machine/Dispatch.lean ====
section
/-! DEFINITION. `exec`: the meaning of each command, one arm for each row of spec/opcode_table.json. -/

namespace Sys2Proof.Machine

def exec (i : Instr) (s : State) : Host.Outcome State Fault Refusal :=
  match i with
  | .resetnRelease pins => Sys2Proof.Machine.execResetnRelease pins s
  | .standbynAssert => Sys2Proof.Machine.execStandbynAssert s
  | .standbynRelease => Sys2Proof.Machine.execStandbynRelease s
  | .presentHigh => Sys2Proof.Machine.execPresentHigh s
  | .presentLow => Sys2Proof.Machine.execPresentLow s
  | .ppLinkUp => Sys2Proof.Machine.execPpLinkUp s
  | .ppLinkDown => Sys2Proof.Machine.execPpLinkDown s
  | .ringBurstStart l => Sys2Proof.Machine.execRingBurstStart l s
  | .ringBurstEnd l t => Sys2Proof.Machine.execRingBurstEnd l t s
  | .ringGone l => Sys2Proof.Machine.execRingGone l s
  | .ringWaitExpiry l => Sys2Proof.Machine.execRingWaitExpiry l s
  | .faultTimerExpiry l => Sys2Proof.Machine.execFaultTimerExpiry l s
  | .loopVoltageReturn l => Sys2Proof.Machine.execLoopVoltageReturn l s
  | .loopBreak l => Sys2Proof.Machine.execLoopBreak l s
  | .extChange l offHook => Sys2Proof.Machine.execExtChange l offHook s
  | .clearingGuardEnd l => Sys2Proof.Machine.execClearingGuardEnd l s
  | .callerWindowTimeout l => Sys2Proof.Machine.execCallerWindowTimeout l s
  | .callerOctet l octet framingFault => Sys2Proof.Machine.execCallerOctet l octet framingFault s
  | .lineStatus h line => Sys2Proof.Machine.execLineStatus h line s
  | .ackChanges h line flags => Sys2Proof.Machine.execAckChanges h line flags s
  | .setLinePolicy h line a => Sys2Proof.Machine.execSetLinePolicy h line a s
  | .takeLine h line => Sys2Proof.Machine.execTakeLine h line s
  | .releaseLine h line => Sys2Proof.Machine.execReleaseLine h line s
  | .answer h line purpose => Sys2Proof.Machine.execAnswer h line purpose s
  | .hookOff h line => Sys2Proof.Machine.execHookOff h line s
  | .hookOn h line => Sys2Proof.Machine.execHookOn h line s
  | .hangUp h line => Sys2Proof.Machine.execHangUp h line s
  | .toneOn l t => Sys2Proof.Machine.execToneOn l t s
  | .toneOff l t => Sys2Proof.Machine.execToneOff l t s
  | .continuousCadence l entry => Sys2Proof.Machine.execContinuousCadence l entry s
  | .cadenceReset l entry => Sys2Proof.Machine.execCadenceReset l entry s
  | .keypadDigit l k => Sys2Proof.Machine.execKeypadDigit l k s
  | .answerTone l => Sys2Proof.Machine.execAnswerTone l s
  | .dataCallingTone l => Sys2Proof.Machine.execDataCallingTone l s
  | .speech l => Sys2Proof.Machine.execSpeech l s
  | .generationDone l => Sys2Proof.Machine.execGenerationDone l s
  | .setCadence h line a => Sys2Proof.Machine.execSetCadence h line a s
  | .trainingComplete l measure => Sys2Proof.Machine.execTrainingComplete l measure s
  | .trainingTimeout l => Sys2Proof.Machine.execTrainingTimeout l s
  | .qualityReport l measure => Sys2Proof.Machine.execQualityReport l measure s
  | .carrierLost l => Sys2Proof.Machine.execCarrierLost l s
  | .carrierBack l => Sys2Proof.Machine.execCarrierBack l s
  | .carrierGone l => Sys2Proof.Machine.execCarrierGone l s
  | .retrainRequested l => Sys2Proof.Machine.execRetrainRequested l s
  | .disturbance l => Sys2Proof.Machine.execDisturbance l s
  | .dialToneWaitTimeout l => Sys2Proof.Machine.execDialToneWaitTimeout l s
  | .dialPauseEnd l => Sys2Proof.Machine.execDialPauseEnd l s
  | .pulseBreakEnd l => Sys2Proof.Machine.execPulseBreakEnd l s
  | .pulseMakeEnd l => Sys2Proof.Machine.execPulseMakeEnd l s
  | .digitPauseEnd l => Sys2Proof.Machine.execDigitPauseEnd l s
  | .flashEnd l => Sys2Proof.Machine.execFlashEnd l s
  | .answerTimerExpiry l => Sys2Proof.Machine.execAnswerTimerExpiry l s
  | .ringbackSilenceExpiry l => Sys2Proof.Machine.execRingbackSilenceExpiry l s
  | .dial h line a => Sys2Proof.Machine.execDial h line a s
  | .queueCall h a => Sys2Proof.Machine.execQueueCall h a s
  | .cancelCall h entry => Sys2Proof.Machine.execCancelCall h entry s
  | .removeCall h entry => Sys2Proof.Machine.execRemoveCall h entry s
  | .listCalls h => Sys2Proof.Machine.execListCalls h s
  | .queueTimeTick => Sys2Proof.Machine.execQueueTimeTick s
  | .entryDue entry => Sys2Proof.Machine.execEntryDue entry s
  | .openEntry h entry => Sys2Proof.Machine.execOpenEntry h entry s
  | .close h handle => Sys2Proof.Machine.execClose h handle s
  | .delete h entry => Sys2Proof.Machine.execDelete h entry s
  | .protect h entry on => Sys2Proof.Machine.execProtect h entry on s
  | .markReviewed h entry => Sys2Proof.Machine.execMarkReviewed h entry s
  | .markUnreviewed h entry => Sys2Proof.Machine.execMarkUnreviewed h entry s
  | .storeStatus h => Sys2Proof.Machine.execStoreStatus h s
  | .setReserve h blocks => Sys2Proof.Machine.execSetReserve h blocks s
  | .eraseStore h => Sys2Proof.Machine.execEraseStore h s
  | .listMessages h kind mailbox => Sys2Proof.Machine.execListMessages h kind mailbox s
  | .messageInfo h entry => Sys2Proof.Machine.execMessageInfo h entry s
  | .setClock h a => Sys2Proof.Machine.execSetClock h a s
  | .readClock h => Sys2Proof.Machine.execReadClock h s
  | .clockTick => Sys2Proof.Machine.execClockTick s
  | .burstEnd => Sys2Proof.Machine.execBurstEnd s
  | .refreshRequest => Sys2Proof.Machine.execRefreshRequest s
  | .bufferTurn c => Sys2Proof.Machine.execBufferTurn c s
  | .setVoice h context a => Sys2Proof.Machine.execSetVoice h context a s
  | .frameEnd c => Sys2Proof.Machine.execFrameEnd c s
  | .maxLengthReached c => Sys2Proof.Machine.execMaxLengthReached c s
  | .voiceBlockFull c => Sys2Proof.Machine.execVoiceBlockFull c s
  | .playbackEnd c => Sys2Proof.Machine.execPlaybackEnd c s
  | .playbackResume c => Sys2Proof.Machine.execPlaybackResume c s
  | .play h target entry start => Sys2Proof.Machine.execPlay h target entry start s
  | .record h a => Sys2Proof.Machine.execRecord h a s
  | .stop h target => Sys2Proof.Machine.execStop h target s
  | .connectLocal h line on => Sys2Proof.Machine.execConnectLocal h line on s
  | .setAccessCode h a => Sys2Proof.Machine.execSetAccessCode h a s
  | .codeTimerExpiry l => Sys2Proof.Machine.execCodeTimerExpiry l s
  | .keyTimerExpiry l => Sys2Proof.Machine.execKeyTimerExpiry l s
  | .frameSent l => Sys2Proof.Machine.execFrameSent l s
  | .underrun l => Sys2Proof.Machine.execUnderrun l s
  | .frameReceived l f => Sys2Proof.Machine.execFrameReceived l f s
  | .frameAbortReceived l => Sys2Proof.Machine.execFrameAbortReceived l s
  | .transparentOctetReceived l octet => Sys2Proof.Machine.execTransparentOctetReceived l octet s
  | .transparentDry l => Sys2Proof.Machine.execTransparentDry l s
  | .faxResponseTimeout l => Sys2Proof.Machine.execFaxResponseTimeout l s
  | .checkZerosEnd l => Sys2Proof.Machine.execCheckZerosEnd l s
  | .checkBitsTimeout l => Sys2Proof.Machine.execCheckBitsTimeout l s
  | .faxReceive h line => Sys2Proof.Machine.execFaxReceive h line s
  | .faxAbort h line => Sys2Proof.Machine.execFaxAbort h line s
  | .faxStatus h line => Sys2Proof.Machine.execFaxStatus h line s
  | .setFax h line a => Sys2Proof.Machine.execSetFax h line a s
  | .callUpIntervalExpiry => Sys2Proof.Machine.execCallUpIntervalExpiry s
  | .callUpWaitExpiry => Sys2Proof.Machine.execCallUpWaitExpiry s
  | .plainOctetReceived octet => Sys2Proof.Machine.execPlainOctetReceived octet s
  | .replyTimerExpiry => Sys2Proof.Machine.execReplyTimerExpiry s
  | .deferredDelivery => Sys2Proof.Machine.execDeferredDelivery s
  | .proposalTimerExpiry => Sys2Proof.Machine.execProposalTimerExpiry s
  | .linkOpen h line role => Sys2Proof.Machine.execLinkOpen h line role s
  | .linkClose h => Sys2Proof.Machine.execLinkClose h s
  | .linkStatus h => Sys2Proof.Machine.execLinkStatus h s
  | .setLink h a => Sys2Proof.Machine.execSetLink h a s
  | .write h a => Sys2Proof.Machine.execWrite h a s
  | .read h a => Sys2Proof.Machine.execRead h a s
  | .clearStream h dir => Sys2Proof.Machine.execClearStream h dir s
  | .streamStatus h dir => Sys2Proof.Machine.execStreamStatus h dir s
  | .streamDataIn p data endMark => Sys2Proof.Machine.execStreamDataIn p data endMark s
  | .streamCreditIn p grant => Sys2Proof.Machine.execStreamCreditIn p grant s
  | .streamDataOut p => Sys2Proof.Machine.execStreamDataOut p s
  | .streamResume p => Sys2Proof.Machine.execStreamResume p s
  | .commandPacketArrival p tag argsOk c => Sys2Proof.Machine.execCommandPacketArrival p tag argsOk c s
  | .badPacketHeader p kind length => Sys2Proof.Machine.execBadPacketHeader p kind length s
  | .unknownCommand h name => Sys2Proof.Machine.execUnknownCommand h name s
  | .replyRead p => Sys2Proof.Machine.execReplyRead p s
  | .hello h => Sys2Proof.Machine.execHello h s
  | .identify h => Sys2Proof.Machine.execIdentify h s
  | .setNotices h classes => Sys2Proof.Machine.execSetNotices h classes s
  | .readNotice h => Sys2Proof.Machine.execReadNotice h s
  | .reset h => Sys2Proof.Machine.execReset h s
  | .resetPort h => Sys2Proof.Machine.execResetPort h s
  | .loopVoltageLoss l => Sys2Proof.Machine.execLoopVoltageLoss l s
  | .toneNoLongerHeard l what => Sys2Proof.Machine.execToneNoLongerHeard l what s
  | .lineSample c x => Sys2Proof.Machine.execLineSample c x s
  | .flagFound l => Sys2Proof.Machine.execFlagFound l s
  | .frameFirstBit l => Sys2Proof.Machine.execFrameFirstBit l s
  | .addressOctetReceived l octet => Sys2Proof.Machine.execAddressOctetReceived l octet s
  | .receiveLimitExceeded l => Sys2Proof.Machine.execReceiveLimitExceeded l s
  | .pageDataSent l => Sys2Proof.Machine.execPageDataSent l s
  | .plainOctetSent => Sys2Proof.Machine.execPlainOctetSent s
  | .refusalSignalGapEnd l => Sys2Proof.Machine.execRefusalSignalGapEnd l s

end Sys2Proof.Machine
end

