-- ==== Sys2Proof/Machine/Outputs.lean ====
section
/-! DEFINITION. The port outputs, computed from the state (spec 11 R199, R201, R205, R207; 10 R198). -/

namespace Sys2Proof.Machine

/-- A port's ATTENTION output: its reply queue or its notice queue is not empty, and the port is not DETACHED (R199, R205). -/
def attention (s : State) (p : PortId) : Bool :=
  let c := s.pc.get p
  c.state != .detached && (!c.replyQueue.isEmpty || !c.noticeQueue.isEmpty)

/-- Intake goes on: the CP's READY output, and the PP's not sending its stop indication (R199, R201, R207). -/
def intakeOpen (s : State) (p : PortId) : Bool :=
  !s.standby && (s.pc.get p).state != .detached && decide ((s.pc.get p).cmdQueue.length < 4)

/-- The CPDREQ output: a CP stream with DMA on can move a packet (R198). -/
def cpdreq (s : State) : Bool :=
  let i := s.st.cp.inb
  let o := s.st.cp.outb
  !s.standby &&
    ((i.dma && i.state == .active && decide (1 ≤ i.credit)) ||
     (o.dma && (o.state == .active || o.state == .waiting) && decide (1 ≤ o.credit) && !o.buffer.isEmpty))

end Sys2Proof.Machine
end

