-- ==== Sys2Proof/WellFormed.lean ====
section
/-! DEFINITION. Which commands are well formed: what a packet can carry (spec 11 Table 11-4, Table 11-5), and what can stand between the
flags of a received frame (07 R134, 08 Table 8-3). A value a command is refused for is well formed: the refusal is its meaning. -/

namespace Sys2Proof

/-! ## Numbers and strings -/

/-- A number takes a value of 1, 2 or 4 bytes (Table 11-5). -/
def num (n : Nat) : Bool := decide (n < 4294967296)

/-- An optional number. -/
def optNum : Option Nat → Bool
  | none => true
  | some n => num n

/-- A string of symbols or characters fits a value of 255 bytes (Table 11-5). -/
def fitsValue {α : Type} (l : List α) : Bool := decide (l.length ≤ 255)

/-- An optional string. -/
def optFits {α : Type} : Option (List α) → Bool
  | none => true
  | some l => fitsValue l

/-! ## Command names (Table 11-3) -/

/-- The names of Table 11-3. -/
def commandNames : List String :=
  ["LINE STATUS", "ACK CHANGES", "SET LINE POLICY", "TAKE LINE", "RELEASE LINE", "ANSWER", "HOOK", "HANG UP", "SET CADENCE",
   "DIAL", "QUEUE CALL", "CANCEL CALL", "REMOVE CALL", "LIST CALLS", "LIST MESSAGES", "MESSAGE INFO", "OPEN", "CLOSE",
   "DELETE", "PROTECT", "MARK REVIEWED", "MARK UNREVIEWED", "STORE STATUS", "SET RESERVE", "ERASE STORE", "SET CLOCK",
   "READ CLOCK"] ++
  ["SET VOICE", "PLAY", "RECORD", "STOP", "CONNECT LOCAL", "SET ACCESS CODE", "FAX RECEIVE", "FAX ABORT", "FAX STATUS",
   "SET FAX", "LINK OPEN", "LINK CLOSE", "LINK STATUS", "SET LINK", "READ", "WRITE", "CLEAR STREAM", "STREAM STATUS", "HELLO",
   "IDENTIFY", "RESET", "RESET PORT", "SET NOTICES", "READ NOTICE"]

/-- The characters of a name as octets. -/
def nameOctets (s : String) : List Byte := s.toList.map fun c => BitVec.ofNat 8 c.toNat

/-- A name that is not in Table 11-3. -/
def unknownName (n : List Byte) : Bool := !(commandNames.map nameOctets).contains n

/-! ## Arguments -/

def PolicyArgs.wf (a : PolicyArgs) : Bool := optNum a.ringCount && optNum a.typeValue && optNum a.typeMask

def CadenceArg.wf (a : CadenceArg) : Bool :=
  num a.entry && num a.onMin && num a.onMax && num a.offMin && num a.offMax && num a.repeatCount

def CadenceArgs.wf (a : CadenceArgs) : Bool := fitsValue a.entries && a.entries.all CadenceArg.wf && optNum a.onTime && optNum a.gapTime

def DialArgs.wf (a : DialArgs) : Bool := fitsValue a.string && optNum a.limit

def QueueArgs.wf (a : QueueArgs) : Bool :=
  fitsValue a.string && optNum a.message && optNum a.delay && optNum a.attempts && optNum a.interval && optNum a.limit

def ClockArgs.wf (a : ClockArgs) : Bool := num a.month && num a.day && num a.hour && num a.minute && num a.second

def VoiceArgs.wf (a : VoiceArgs) : Bool :=
  optNum a.recGain && optNum a.playGain && optNum a.threshold && optNum a.silenceTime && optNum a.maxLength

def RecordArgs.wf (a : RecordArgs) : Bool := optNum a.mailbox

/-- The station identity of SET FAX. -/
def stationArgWf : Arg (Option (List Byte)) → Bool
  | .val s => optFits s
  | _ => true

def FaxArgs.wf (a : FaxArgs) : Bool :=
  optNum a.maxRate && optNum a.minLineTime && optNum a.tolerance && optNum a.runLimit && optNum a.progress &&
    stationArgWf a.station && optNum a.lossTime

def LinkArgs.wf (a : LinkArgs) : Bool :=
  optNum a.window && optNum a.payload && optNum a.ceiling && optNum a.retryLimit && optNum a.replyTimer && optNum a.stepDown &&
    optNum a.lossTime

def WriteArgs.wf (a : WriteArgs) : Bool := optNum a.mailbox && optFits a.station

def ReadArgs.wf (a : ReadArgs) : Bool := num a.handle && optNum a.start

/-- What a COMMAND packet can carry. -/
def Command.wf : Command → Bool
  | .lineStatus line => num line
  | .ackChanges line flags => num line && decide (flags.length ≤ 255)
  | .setLinePolicy line a => num line && a.wf
  | .takeLine line => num line
  | .releaseLine line => num line
  | .answer line _ => num line
  | .hookOff line => num line
  | .hookOn line => num line
  | .hangUp line => num line
  | .setCadence line a => num line && a.wf
  | .dial line a => num line && a.wf
  | .queueCall a => a.wf
  | .cancelCall entry => num entry
  | .removeCall entry => num entry
  | .listCalls => true
  | .openEntry entry => num entry
  | .close handle => num handle
  | .delete entry => num entry
  | .protect entry _ => num entry
  | .markReviewed entry => num entry
  | .markUnreviewed entry => num entry
  | .storeStatus => true
  | .setReserve blocks => num blocks
  | .eraseStore => true
  | .listMessages _ mailbox => optNum mailbox
  | .messageInfo entry => num entry
  | .setClock a => a.wf
  | .readClock => true
  | .setVoice _ a => a.wf
  | .play _ entry start => num entry && num start
  | .record a => a.wf
  | .stop _ => true
  | .connectLocal line _ => num line
  | .setAccessCode _ => true
  | .faxReceive line => num line
  | .faxAbort line => num line
  | .faxStatus line => num line
  | .setFax line a => num line && a.wf
  | .linkOpen line _ => num line
  | .linkClose => true
  | .linkStatus => true
  | .setLink a => a.wf
  | .write a => a.wf
  | .read a => a.wf
  | .clearStream _ => true
  | .streamStatus _ => true
  | .unknown name => decide (1 ≤ name.length ∧ name.length ≤ 24) && unknownName name
  | .hello => true
  | .identify => true
  | .setNotices classes => decide (classes.length ≤ 255)
  | .readNotice => true
  | .reset => true
  | .resetPort => true

/-! ## What the line brings -/

/-- At most five ones in a row, `k` of them gone before: no flag and no abort stands between two flags (R134). -/
def noSix (k : Nat) : List Bool → Bool
  | [] => true
  | true :: bs => decide (k < 5) && noSix (k + 1) bs
  | false :: bs => noSix 0 bs

/-- A minimum line time of Table 8-2. -/
def lineTime (t : Nat) : Bool := t == 0 || t == 5 || t == 10 || t == 20 || t == 40

/-- The fields of a control frame lie in the ranges of Table 8-1 and Table 8-2. -/
def ControlFrame.wf : ControlFrame → Bool
  | .offer o => lineTime o.minLineTime && (match o.station with | none => true | some s => decide (1 ≤ s.length ∧ s.length ≤ 20))
  | .choose c st => lineTime c.minLineTime && (match st with | none => true | some s => decide (1 ≤ s.length ∧ s.length ≤ 20))
  | .checkOk => true
  | .checkFail => true
  | .pageDone _ => true
  | .pageOk => true
  | .pageRetrain => true
  | .pageResend => true
  | .blockEnd block count => decide (block < 256 ∧ 1 ≤ count ∧ count ≤ 64)
  | .blockStatus block missing => decide (block < 256 ∧ missing.length ≤ 64) && missing.all fun k => decide (k < 64)
  | .endSession => true

/-- What can stand between two flags. -/
def LineFrame.wf : LineFrame → Bool
  | .bits raw => noSix 0 raw
  | .control c => c.wf

/-! ## Commands -/

/-- A master's command: what its packet carries, and the command as a COMMAND packet names it. -/
def Instr.command? : Instr → Option (CmdHead × Command)
  | .resetnRelease _ => none
  | .standbynAssert => none
  | .standbynRelease => none
  | .presentHigh => none
  | .presentLow => none
  | .ppLinkUp => none
  | .ppLinkDown => none
  | .ringBurstStart _ => none
  | .ringBurstEnd _ _ => none
  | .ringGone _ => none
  | .ringWaitExpiry _ => none
  | .faultTimerExpiry _ => none
  | .loopVoltageReturn _ => none
  | .loopBreak _ => none
  | .extChange _ _ => none
  | .clearingGuardEnd _ => none
  | .callerWindowTimeout _ => none
  | .callerOctet _ _ _ => none
  | .lineStatus h line => some (h, .lineStatus line)
  | .ackChanges h line flags => some (h, .ackChanges line flags)
  | .setLinePolicy h line a => some (h, .setLinePolicy line a)
  | .takeLine h line => some (h, .takeLine line)
  | .releaseLine h line => some (h, .releaseLine line)
  | .answer h line purpose => some (h, .answer line purpose)
  | .hookOff h line => some (h, .hookOff line)
  | .hookOn h line => some (h, .hookOn line)
  | .hangUp h line => some (h, .hangUp line)
  | .toneOn _ _ => none
  | .toneOff _ _ => none
  | .continuousCadence _ _ => none
  | .cadenceReset _ _ => none
  | .keypadDigit _ _ => none
  | .answerTone _ => none
  | .dataCallingTone _ => none
  | .speech _ => none
  | .generationDone _ => none
  | .setCadence h line a => some (h, .setCadence line a)
  | .trainingComplete _ _ => none
  | .trainingTimeout _ => none
  | .qualityReport _ _ => none
  | .carrierLost _ => none
  | .carrierBack _ => none
  | .carrierGone _ => none
  | .retrainRequested _ => none
  | .disturbance _ => none
  | .dialToneWaitTimeout _ => none
  | .dialPauseEnd _ => none
  | .pulseBreakEnd _ => none
  | .pulseMakeEnd _ => none
  | .digitPauseEnd _ => none
  | .flashEnd _ => none
  | .answerTimerExpiry _ => none
  | .ringbackSilenceExpiry _ => none
  | .dial h line a => some (h, .dial line a)
  | .queueCall h a => some (h, .queueCall a)
  | .cancelCall h entry => some (h, .cancelCall entry)
  | .removeCall h entry => some (h, .removeCall entry)
  | .listCalls h => some (h, .listCalls)
  | .queueTimeTick => none
  | .entryDue _ => none
  | .openEntry h entry => some (h, .openEntry entry)
  | .close h handle => some (h, .close handle)
  | .delete h entry => some (h, .delete entry)
  | .protect h entry on => some (h, .protect entry on)
  | .markReviewed h entry => some (h, .markReviewed entry)
  | .markUnreviewed h entry => some (h, .markUnreviewed entry)
  | .storeStatus h => some (h, .storeStatus)
  | .setReserve h blocks => some (h, .setReserve blocks)
  | .eraseStore h => some (h, .eraseStore)
  | .listMessages h kind mailbox => some (h, .listMessages kind mailbox)
  | .messageInfo h entry => some (h, .messageInfo entry)
  | .setClock h a => some (h, .setClock a)
  | .readClock h => some (h, .readClock)
  | .clockTick => none
  | .burstEnd => none
  | .refreshRequest => none
  | .bufferTurn _ => none
  | .setVoice h context a => some (h, .setVoice context a)
  | .frameEnd _ => none
  | .maxLengthReached _ => none
  | .voiceBlockFull _ => none
  | .playbackEnd _ => none
  | .playbackResume _ => none
  | .play h target entry start => some (h, .play target entry start)
  | .record h a => some (h, .record a)
  | .stop h target => some (h, .stop target)
  | .connectLocal h line on => some (h, .connectLocal line on)
  | .setAccessCode h a => some (h, .setAccessCode a)
  | .codeTimerExpiry _ => none
  | .keyTimerExpiry _ => none
  | .frameSent _ => none
  | .underrun _ => none
  | .frameReceived _ _ => none
  | .frameAbortReceived _ => none
  | .transparentOctetReceived _ _ => none
  | .transparentDry _ => none
  | .faxResponseTimeout _ => none
  | .checkZerosEnd _ => none
  | .checkBitsTimeout _ => none
  | .faxReceive h line => some (h, .faxReceive line)
  | .faxAbort h line => some (h, .faxAbort line)
  | .faxStatus h line => some (h, .faxStatus line)
  | .setFax h line a => some (h, .setFax line a)
  | .callUpIntervalExpiry => none
  | .callUpWaitExpiry => none
  | .plainOctetReceived _ => none
  | .replyTimerExpiry => none
  | .deferredDelivery => none
  | .proposalTimerExpiry => none
  | .linkOpen h line role => some (h, .linkOpen line role)
  | .linkClose h => some (h, .linkClose)
  | .linkStatus h => some (h, .linkStatus)
  | .setLink h a => some (h, .setLink a)
  | .write h a => some (h, .write a)
  | .read h a => some (h, .read a)
  | .clearStream h dir => some (h, .clearStream dir)
  | .streamStatus h dir => some (h, .streamStatus dir)
  | .streamDataIn _ _ _ => none
  | .streamCreditIn _ _ => none
  | .streamDataOut _ => none
  | .streamResume _ => none
  | .commandPacketArrival _ _ _ _ => none
  | .badPacketHeader _ _ _ => none
  | .unknownCommand h name => some (h, .unknown name)
  | .replyRead _ => none
  | .hello h => some (h, .hello)
  | .identify h => some (h, .identify)
  | .setNotices h classes => some (h, .setNotices classes)
  | .readNotice h => some (h, .readNotice)
  | .reset h => some (h, .reset)
  | .resetPort h => some (h, .resetPort)
  | .loopVoltageLoss _ => none
  | .toneNoLongerHeard _ _ => none
  | .lineSample _ _ => none
  | .flagFound _ => none
  | .frameFirstBit _ => none
  | .addressOctetReceived _ _ => none
  | .receiveLimitExceeded _ => none
  | .pageDataSent _ => none
  | .plainOctetSent => none
  | .refusalSignalGapEnd _ => none

/-- A command is well formed. -/
def Instr.wf : Instr → Bool
  | .resetnRelease _ => true
  | .standbynAssert => true
  | .standbynRelease => true
  | .presentHigh => true
  | .presentLow => true
  | .ppLinkUp => true
  | .ppLinkDown => true
  | .ringBurstStart _ => true
  | .ringBurstEnd _ _ => true
  | .ringGone _ => true
  | .ringWaitExpiry _ => true
  | .faultTimerExpiry _ => true
  | .loopVoltageReturn _ => true
  | .loopBreak _ => true
  | .extChange _ _ => true
  | .clearingGuardEnd _ => true
  | .callerWindowTimeout _ => true
  | .callerOctet _ _ _ => true
  | .lineStatus _ line => (Command.lineStatus line).wf
  | .ackChanges _ line flags => (Command.ackChanges line flags).wf
  | .setLinePolicy _ line a => (Command.setLinePolicy line a).wf
  | .takeLine _ line => (Command.takeLine line).wf
  | .releaseLine _ line => (Command.releaseLine line).wf
  | .answer _ line purpose => (Command.answer line purpose).wf
  | .hookOff _ line => (Command.hookOff line).wf
  | .hookOn _ line => (Command.hookOn line).wf
  | .hangUp _ line => (Command.hangUp line).wf
  | .toneOn _ _ => true
  | .toneOff _ _ => true
  | .continuousCadence _ _ => true
  | .cadenceReset _ _ => true
  | .keypadDigit _ _ => true
  | .answerTone _ => true
  | .dataCallingTone _ => true
  | .speech _ => true
  | .generationDone _ => true
  | .setCadence _ line a => (Command.setCadence line a).wf
  | .trainingComplete _ _ => true
  | .trainingTimeout _ => true
  | .qualityReport _ _ => true
  | .carrierLost _ => true
  | .carrierBack _ => true
  | .carrierGone _ => true
  | .retrainRequested _ => true
  | .disturbance _ => true
  | .dialToneWaitTimeout _ => true
  | .dialPauseEnd _ => true
  | .pulseBreakEnd _ => true
  | .pulseMakeEnd _ => true
  | .digitPauseEnd _ => true
  | .flashEnd _ => true
  | .answerTimerExpiry _ => true
  | .ringbackSilenceExpiry _ => true
  | .dial _ line a => (Command.dial line a).wf
  | .queueCall _ a => (Command.queueCall a).wf
  | .cancelCall _ entry => (Command.cancelCall entry).wf
  | .removeCall _ entry => (Command.removeCall entry).wf
  | .listCalls _ => Command.listCalls.wf
  | .queueTimeTick => true
  | .entryDue _ => true
  | .openEntry _ entry => (Command.openEntry entry).wf
  | .close _ handle => (Command.close handle).wf
  | .delete _ entry => (Command.delete entry).wf
  | .protect _ entry on => (Command.protect entry on).wf
  | .markReviewed _ entry => (Command.markReviewed entry).wf
  | .markUnreviewed _ entry => (Command.markUnreviewed entry).wf
  | .storeStatus _ => Command.storeStatus.wf
  | .setReserve _ blocks => (Command.setReserve blocks).wf
  | .eraseStore _ => Command.eraseStore.wf
  | .listMessages _ kind mailbox => (Command.listMessages kind mailbox).wf
  | .messageInfo _ entry => (Command.messageInfo entry).wf
  | .setClock _ a => (Command.setClock a).wf
  | .readClock _ => Command.readClock.wf
  | .clockTick => true
  | .burstEnd => true
  | .refreshRequest => true
  | .bufferTurn _ => true
  | .setVoice _ context a => (Command.setVoice context a).wf
  | .frameEnd _ => true
  | .maxLengthReached _ => true
  | .voiceBlockFull _ => true
  | .playbackEnd _ => true
  | .playbackResume _ => true
  | .play _ target entry start => (Command.play target entry start).wf
  | .record _ a => (Command.record a).wf
  | .stop _ target => (Command.stop target).wf
  | .connectLocal _ line on => (Command.connectLocal line on).wf
  | .setAccessCode _ a => (Command.setAccessCode a).wf
  | .codeTimerExpiry _ => true
  | .keyTimerExpiry _ => true
  | .frameSent _ => true
  | .underrun _ => true
  | .frameReceived _ f => f.wf
  | .frameAbortReceived _ => true
  | .transparentOctetReceived _ _ => true
  | .transparentDry _ => true
  | .faxResponseTimeout _ => true
  | .checkZerosEnd _ => true
  | .checkBitsTimeout _ => true
  | .faxReceive _ line => (Command.faxReceive line).wf
  | .faxAbort _ line => (Command.faxAbort line).wf
  | .faxStatus _ line => (Command.faxStatus line).wf
  | .setFax _ line a => (Command.setFax line a).wf
  | .callUpIntervalExpiry => true
  | .callUpWaitExpiry => true
  | .plainOctetReceived _ => true
  | .replyTimerExpiry => true
  | .deferredDelivery => true
  | .proposalTimerExpiry => true
  | .linkOpen _ line role => (Command.linkOpen line role).wf
  | .linkClose _ => Command.linkClose.wf
  | .linkStatus _ => Command.linkStatus.wf
  | .setLink _ a => (Command.setLink a).wf
  | .write _ a => (Command.write a).wf
  | .read _ a => (Command.read a).wf
  | .clearStream _ dir => (Command.clearStream dir).wf
  | .streamStatus _ dir => (Command.streamStatus dir).wf
  | .streamDataIn _ data _ => decide (data.length ≤ 4096)
  | .streamCreditIn _ _ => true
  | .streamDataOut _ => true
  | .streamResume _ => true
  | .commandPacketArrival _ _ _ c => c.wf
  | .badPacketHeader _ kind length => decide (length < 65536 ∧ (kind.toNat = 0 ∨ 5 < kind.toNat ∨ 4096 < length))
  | .unknownCommand _ name => (Command.unknown name).wf
  | .replyRead _ => true
  | .hello _ => Command.hello.wf
  | .identify _ => Command.identify.wf
  | .setNotices _ classes => (Command.setNotices classes).wf
  | .readNotice _ => Command.readNotice.wf
  | .reset _ => Command.reset.wf
  | .resetPort _ => Command.resetPort.wf
  | .loopVoltageLoss _ => true
  | .toneNoLongerHeard _ _ => true
  | .lineSample _ _ => true
  | .flagFound _ => true
  | .frameFirstBit _ => true
  | .addressOctetReceived _ _ => true
  | .receiveLimitExceeded _ => true
  | .pageDataSent _ => true
  | .plainOctetSent => true
  | .refusalSignalGapEnd _ => true

end Sys2Proof
end

