-- ==== Sys2Proof/Safety.lean ====
section
/-! DEFINITION. What a safe run is (every step of it answers a next state), and what a legal state is: every setting within its
table, every queue and buffer within its size, every block number within the store. -/

namespace Sys2Proof.Machine

/-! ## Runs -/

/-- A step answers a next state: it neither faults nor is refused. -/
def stepsOn (s : State) : Prop := ∃ t, step s = .next t

/-- `t` is reached from `s` by steps that each answer a next state. -/
inductive Reaches : State → State → Prop where
  | refl (s : State) : Reaches s s
  | tail {s t u : State} : Reaches s t → step t = .next u → Reaches s u

/-- Every run from `s` goes on: no state it reaches stops. -/
def runsSafely (s : State) : Prop := ∀ t, Reaches s t → stepsOn t

/-- The burst in progress names a block the DRAM has, or none: what BURST_END needs to complete (log 38). -/
def burstInside (s : State) : Bool :=
  match s.arb.current with
  | none => true
  | some v => s.standby || !burstOutside s v

/-! ## Legal settings -/

/-- A line policy within Table 1-9. -/
def PolicyOk (p : LinePolicy) : Prop := 1 ≤ p.ringCount ∧ p.ringCount ≤ 9

/-- A cadence entry within R35: its minimums are not above its maximums, but that an off maximum of 0 marks a continuous entry. -/
def CadenceOk (e : CadenceEntry) : Prop :=
  20 ≤ e.onMin ∧ e.onMin ≤ e.onMax ∧ e.onMax ≤ 10000 ∧ e.offMin ≤ 10000 ∧ (e.offMax = 0 ∨ e.offMin ≤ e.offMax) ∧
    e.offMax ≤ 10000 ∧ e.repeatCount ≤ 15

/-- Voice settings within Tables 5-1 and 6-2. -/
def VoiceOk (v : VoiceSettings) : Prop :=
  v.recGain ≤ 31 ∧ v.playGain ≤ 31 ∧ v.threshold ≤ 2047 ∧ 1000 ≤ v.silenceTime ∧ v.silenceTime ≤ 15000 ∧
    (v.maxLength = 0 ∨ (10 ≤ v.maxLength ∧ v.maxLength ≤ 600))

/-- Fax settings within Table 8-2. -/
def FaxOk (v : FaxSettings) : Prop :=
  lineTimeOk v.minLineTime = true ∧ 1 ≤ v.tolerance ∧ v.tolerance ≤ 20 ∧ 1 ≤ v.runLimit ∧ v.runLimit ≤ 64 ∧
    v.progress ≤ 1023 ∧ (∀ i ∈ v.station, stationOk i = true) ∧ 500 ≤ v.lossTime ∧ v.lossTime ≤ 5000

/-- Link settings within Table 9-2. -/
def LinkSetOk (v : LinkSettings) : Prop :=
  1 ≤ v.window ∧ v.window ≤ 15 ∧ 16 ≤ v.payload ∧ v.payload ≤ 256 ∧ 1 ≤ v.retryLimit ∧ v.retryLimit ≤ 15 ∧
    200 ≤ v.replyTimer ∧ v.replyTimer ≤ 5000 ∧ 1 ≤ v.stepDown ∧ v.stepDown ≤ 32 ∧ 500 ≤ v.lossTime ∧ v.lossTime ≤ 5000

/-- A time of year as R89 keeps it. -/
def ClockOk (t : ClockTime) : Prop :=
  1 ≤ t.month ∧ t.month ≤ 12 ∧ 1 ≤ t.day ∧ t.day ≤ monthLength t.month ∧ t.hour ≤ 23 ∧ t.minute ≤ 59 ∧ t.second ≤ 59

/-! ## Legal records -/

/-- A line record within Table 1-7, under a legal policy. -/
def LineOk (r : LineRec) : Prop := PolicyOk r.policy ∧ r.ringCount ≤ 255 ∧ r.snapshot ≤ 11

/-- A Signal Unit whose cadence table and keypad-tone times are as R35 keeps them. -/
def UnitOk (u : SignalUnit) : Prop :=
  (∀ n : Fin 8, CadenceOk u.cadence[n]) ∧ 50 ≤ u.toneOnTime ∧ u.toneOnTime ≤ 200 ∧ 50 ≤ u.toneGapTime ∧ u.toneGapTime ≤ 200

/-- A store of a size the straps give (Table 4-1), whose blocks all lie in the DRAM, over a memory in canonical form. -/
def StoreOk (st : Store) : Prop :=
  (st.nBlocks = 2048 ∨ st.nBlocks = 4096 ∨ st.nBlocks = 8192) ∧ st.reserve ≤ 255 ∧ st.fresh ≤ st.nBlocks ∧
    (∀ b ∈ st.returned, b < st.nBlocks) ∧ (∀ n : Fin 128, ∀ b ∈ st.dir[n].blocks, b.num < st.nBlocks) ∧
    Memory.wf st.dram = true

/-- A voice context with legal settings, whose buffer in transfer names a block of the store. -/
def CtxOk (nBlocks : Nat) (v : VoiceCtx) : Prop := VoiceOk v.settings ∧ ∀ b ∈ v.other.block, b < nBlocks

/-- An access code of four digits, or none (R113). -/
def CodeOk (c : Option (List (Fin 10))) : Prop := ∀ ds ∈ c, ds.length = 4

/-- A session with a code entry still to be judged (R127). -/
def SessionOk (q : Session) : Prop := q.codeDigits.length ≤ 3 ∧ q.wrongCodes ≤ 2

/-- Every channel count stays at 65535 (Table 7-1). -/
def CountsOk (k : ChanCounts) : Prop :=
  k.sent ≤ 65535 ∧ k.sentAborted ≤ 65535 ∧ k.discarded ≤ 65535 ∧ k.good ≤ 65535 ∧ k.badCheck ≤ 65535 ∧ k.aborted ≤ 65535 ∧
    k.tooLong ≤ 65535 ∧ k.short ≤ 65535 ∧ k.align ≤ 65535 ∧ k.frameLost ≤ 65535

/-- A Frame Channel whose queues hold at most four records each (R136, R143), with a receive limit of 3 to 300 (Table 7-1). -/
def ChanOk (c : Channel) : Prop :=
  c.txQueue.length ≤ 4 ∧ c.rxQueue.length ≤ 4 ∧ 3 ≤ c.limit ∧ c.limit ≤ 300 ∧ CountsOk c.counts

/-- A link record whose numbers are modulo 32 and whose history holds 32 entries (Table 9-1). -/
def LinkOk (c : LinkRec) : Prop := c.s < 32 ∧ c.v < 32 ∧ c.history.length ≤ 32

/-- An inbound stream whose credit and occupied slots together are at most 8 (R191, R192). -/
def InOk (i : InStream) : Prop := i.credit + i.slots.length ≤ 8

/-- An outbound stream whose buffer holds at most 512 bytes and whose credit is at most 255 (R193, R194). -/
def OutOk (o : OutStream) : Prop := o.buffer.length ≤ 512 ∧ o.credit ≤ 255

/-- A port whose command and reply queues hold at most four entries (R201, R202), and whose notices are of enabled classes, no two
of one class and subject (R203, R204). -/
def PortOk (c : PortCtl) : Prop :=
  c.cmdQueue.length ≤ 4 ∧ c.replyQueue.length ≤ 4 ∧ (∀ n ∈ c.noticeQueue, n.cls ∈ c.mask) ∧
    (c.noticeQueue.map fun n => (n.cls, n.subject)).Nodup

/-- A legal state: the dial strings are those that R47 allows, and each part is as above. Every state that a run from reset reaches is one. -/
structure Legal (s : State) : Prop where
  line : ∀ l, LineOk (s.lc.get l)
  unit : ∀ l, UnitOk (s.su.get l)
  store : StoreOk s.store
  ctx : ∀ c, CtxOk s.store.nBlocks (s.vp.get c)
  clock : ClockOk s.tod.time
  access : CodeOk s.vm.accessCode
  session : ∀ l, SessionOk (s.vm.session.get l)
  chan : ∀ l, ChanOk (s.fc.get l)
  faxSet : ∀ l, FaxOk (s.fxSet.get l)
  linkSet : LinkSetOk s.clSet
  link : LinkOk s.cl
  inb : ∀ p, InOk (s.st.get p).inb
  outb : ∀ p, OutOk (s.st.get p).outb
  port : ∀ p, PortOk (s.pc.get p)
  dial : ∀ l, (s.dq.get l).record.string.length ≤ 40
  call : ∀ n : Fin 8, s.queue[n].string.length ≤ 40

end Sys2Proof.Machine
end

