-- ==== Sys2Proof/Certificates/Slice0/Obligations.lean ====
section
/-! DEFINITION. The statements about the 2408, one `Obligations.<Name>` each, and the vocabulary they are written in. -/

namespace Sys2Proof.Claims

open Sys2Proof.Machine

/-! ## Vocabulary: what follows a command, and answering one -/

/-- The command takes the state to `u` and then to what follows it within the same step (`settle`: the owners of the channels, the
streams, dispatch and the arbiter are looked at). -/
def Follows (i : Instr) (s u : State) : Prop := exec i s = .next (settle s u)

/-- Nothing waits to be looked at after a command: no channel has an owner, no stream is bound, no queued call waits, no line is
screened, no playing context lacks its next block, and the arbiter has nothing to begin. In such a state `settle` changes nothing (`Obligations.SettleLeavesCalmStates`). -/
structure Calm (s : State) : Prop where
  channels : ∀ l, (s.fc.get l).owner = .none
  streams : ∀ p, (s.st.get p).inb.binding = none ∧ (s.st.get p).outb.binding = none
  queue : ∀ n : Fin 8, s.queue[n].state ≠ .waiting
  screen : ∀ l, screens l s = none
  speaker : ∀ l, s.vm.holder ≠ .screen l
  refresh : s.arb.refresh = false
  plays : ∀ c, (s.vp.get c).activity = .playing → (s.vp.get c).other.block.isSome
  voice : ∀ c, voicePending c s = false
  fax : ∀ l, faxPending l s = false

/-- The conditions in which a command of a master is carried out at once (R201, R202): the part runs, the port is READY, the
arguments have the right form, the reply queue has room, and no other packet waits before it. -/
structure Takes (h : CmdHead) (c : Command) (s : State) : Prop where
  runs : s.standby = false
  ready : (s.pc.get h.port).state = .ready
  form : h.argsOk = true
  room : (s.pc.get h.port).replyQueue.length < 4
  turn : (s.pc.get h.port).cmdQueue = [] ∨ (s.pc.get h.port).cmdQueue.head? = some ⟨h.tag, h.argsOk, c⟩

/-- The state with the command taken off its port's queue and its REPLY at the tail of the reply queue. -/
def answered (h : CmdHead) (code : Result) (body : ReplyBody) (s : State) : State :=
  s.updPc h.port fun c =>
    { c with cmdQueue := c.cmdQueue.tail, replyQueue := c.replyQueue ++ [⟨some ⟨h.tag, code, body⟩, none⟩] }

/-- The command is answered with a code and fields, and changes nothing but the port's queues. -/
def OnlyAnswers (i : Instr) (h : CmdHead) (code : Result) (body : ReplyBody) (s : State) : Prop :=
  exec i s = .next (answered h code body s)

/-- The command is answered with a code and no fields, `u` being what it makes of the rest of the state. -/
def Does (i : Instr) (h : CmdHead) (code : Result) (s u : State) : Prop := Follows i s (answered h code .none u)

/-! ## Vocabulary: flags, notices and frames -/

/-- What raising a notice does to a port (R204). -/
def noticed (n : Notice) (c : PortCtl) : PortCtl :=
  if c.state = .ready ∧ n.cls ∈ c.mask then { c with noticeQueue := enqueueNotice n c.noticeQueue } else c

/-- What raising several notices, one after another, does to a port. -/
def noticedAll (ns : List Notice) (c : PortCtl) : PortCtl := ns.foldl (fun c n => noticed n c) c

/-- The ports of `u` are those of `s` with these notices raised towards both, and nothing else. -/
def Notices (ns : List Notice) (s u : State) : Prop := ∀ p, u.pc.get p = noticedAll ns (s.pc.get p)

/-- A change-flag set with flags added. -/
def flagged (fs : List ChangeFlag) (c : Changes) : Changes := fs.foldl Changes.add c

/-- Line `l` shows these changes in `u` (R2): the flags are added to the set of every READY port, each raises its notice, no other
part of a port changes, and the other port's set stays. -/
structure Shows (l : LineId) (fs : List ChangeFlag) (s u : State) : Prop where
  flags : ∀ p, (u.lc.get l).changes.get p =
    if (s.pc.get p).state = .ready then flagged fs ((s.lc.get l).changes.get p) else (s.lc.get l).changes.get p
  notices : Notices (fs.map (flagNotice l)) s u

/-- The frame of a change of one line: its line record, Signal Unit and Frame Channel, and the ports' notices. Everything else is
unchanged. -/
structure LineOnly (l : LineId) (s u : State) : Prop where
  rest : u = { s with lc := u.lc, su := u.su, fc := u.fc, pc := u.pc }
  other : ∀ k, k ≠ l → u.lc.get k = s.lc.get k ∧ u.su.get k = s.su.get k ∧ u.fc.get k = s.fc.get k

/-- A line's Signal Unit has been asked for a mode with no ceilings named, and its channel follows it (R29, R43). -/
def UnitAsked (l : LineId) (m : SuMode) (s u : State) : Prop :=
  u.su.get l = (s.su.get l).request m 5 5 none ∧
    u.fc.get l = Channel.follow ((s.su.get l).request m 5 5 none) (s.fc.get l).bitsStop

/-- A line's Signal Unit and channel are as they were. -/
def UnitKept (l : LineId) (s u : State) : Prop := u.su.get l = s.su.get l ∧ u.fc.get l = s.fc.get l

/-- The block runs: it is not in standby. -/
abbrev Runs (s : State) : Prop := s.standby = false

/-! ## Vocabulary: fax control frames and link frames -/

/-- A side's control frame is the last frame, numbered afresh, and the side goes on from it when it is SENT; the response timer is stopped; the
frame stands in the transmit queue, or waits to be offered again where the channel refused it (R136, R149). -/
structure ControlAsked (l : LineId) (f : ControlFrame) (after : AfterSent) (s u : State) : Prop where
  last : (u.fx.get l).lastFrame = some f ∧ (u.fx.get l).timer = false
  work : (u.fw.get l).after = after ∧ (u.fw.get l).step = .slow ∧ (u.fw.get l).aborts = 0 ∧
    (u.fw.get l).serial = (s.fw.get l).serial + 1
  queue : ((u.fw.get l).refused = none ∧ ⟨0xFF, .control f, .control (u.fw.get l).serial⟩ ∈ (u.fc.get l).txQueue) ∨
    (u.fw.get l).refused = some f

/-- A side's control frame is being sent: the channel has taken it at the tail of its queue (R149). -/
structure ControlSending (l : LineId) (f : ControlFrame) (after : AfterSent) (s u : State) : Prop where
  asked : ControlAsked l f after s u
  taken : (u.fw.get l).refused = none ∧ (u.fc.get l).txMode = .framed ∧
    (u.fc.get l).txQueue.getLast? = some ⟨0xFF, .control f, .control (u.fw.get l).serial⟩

/-- A fax session has ended with an outcome and its line clears (R167). -/
structure FaxEnds (l : LineId) (o : FaxOutcome) (s u : State) : Prop where
  session : (u.fx.get l).role = .none ∧ (u.fx.get l).outcome = some o ∧ (u.fc.get l).owner = .none
  line : (u.lc.get l).state = .clearing ∧ (u.lc.get l).hook = false ∧ (u.su.get l).mode = .quiet
  other : ∀ k, k ≠ l → u.lc.get k = s.lc.get k ∧ u.fx.get k = s.fx.get k

/-- The link's line can take one more frame at once: nothing waits before it, the transmitter takes frames and has room (R136, R173). -/
structure LinkRoom (l : LineId) (s : State) : Prop where
  line : s.cl.line = some l
  idle : s.cw.control = [] ∧ s.cw.again = [] ∧ s.cw.fresh = []
  takes : (s.fc.get l).txMode = .framed ∧ ((s.fc.get l).txState = .idle ∨ (s.fc.get l).txState = .sending ∨ (s.fc.get l).txState = .held) ∧
    (s.fc.get l).txQueue.length < 4

/-- The channel with a frame of the link offered to it; an IDLE transmitter begins with a flag (R136, R137). -/
def offered (r : LinkRole) (f : LinkFrame) (ref : FrameRef) (c : Channel) : Channel :=
  { c with txQueue := c.txQueue ++ [⟨match r with | .caller => 0x03 | .answerer => 0x01, .octets f.octets, ref⟩],
           txState := if c.txState = .idle then .sending else c.txState,
           wire := if c.txState = .idle then c.wire ++ flagBits else c.wire }

/-- The link has ended on its own (R186): its record keeps the outcome, the channel is unbound, the CP's inbound stream halts with LINK-ENDED,
and the line clears. -/
structure LinkEnds (l : LineId) (o : LinkOutcome) (s u : State) : Prop where
  link : u.cl.state = .ended ∧ u.cl.outcome = some o ∧ u.cl.outstanding = [] ∧ u.cl.rate = s.cl.rate ∧ u.cl.built = s.cl.built
  channel : (u.fc.get l).owner = .none ∧ (u.fc.get l).txState = .off ∧ (u.fc.get l).rxState = .off
  line : (u.lc.get l).state = .clearing ∧ (u.lc.get l).hook = false ∧ (u.su.get l).mode = .quiet
  streams : s.pc.cp.state = .ready → s.cw.departed = false → s.st.cp.inb.binding = some .link → s.st.cp.inb.state = .active →
    u.st.cp.inb.state = .halted ∧ u.st.cp.inb.halt = some .linkEnded ∧ u.st.cp.inb.credit = 0 ∧ u.st.cp.inb.slots = []
  other : u.st.pp = s.st.pp ∧ u.store = s.store ∧ u.queue = s.queue ∧ u.tod = s.tod ∧ u.vp = s.vp ∧ u.clSet = s.clSet

end Sys2Proof.Claims

open Sys2Proof Sys2Proof.Machine Sys2Proof.Claims

/-! ## The machine as a whole -/

/-- A step carries out the command at the front of the queue, with the queue's rest; with none waiting the block idles (log 1). -/
def Obligations.StepTakesTheFrontCommand : Prop :=
  (∀ (c : Instr) (s : State) (rest : List Instr), step { s with pending := c :: rest } = exec c { s with pending := rest }) ∧
    ∀ s : State, s.pending = [] → step s = .next s

/-- Every command answers a next state, but for a BURST_END whose burst names a block the DRAM does not have; none is refused
(log 38). -/
def Obligations.OnlyABurstOutsideTheDramStops : Prop :=
  ∀ (i : Instr) (s : State),
    (∃ t, exec i s = .next t) ∨ (i = .burstEnd ∧ burstInside s = false ∧ exec i s = .fault .outsideDram)

/-- A step that goes on takes exactly one command off the queue and adds none. -/
def Obligations.StepConsumesOneCommand : Prop :=
  ∀ (i : Instr) (rest : List Instr) (s t : State), s.pending = i :: rest → step s = .next t → t.pending = rest

/-- Every step keeps a legal state legal. -/
def Obligations.StepKeepsLegal : Prop := ∀ s t : State, Legal s → step s = .next t → Legal t

/-- The machine right after reset is legal, whatever its inputs and whatever commands wait.
Where the spec leaves a choice it is the model's, of logs 2 and 33. -/
def Obligations.ResetIsLegal : Prop :=
  ∀ (v : PinLevels) (cmds : List Instr), Legal (State.afterResetn v [] cmds) ∧ Legal { State.reset with pending := cmds }

/-- A legal state's step answers a next state, which is legal, its burst in progress inside the DRAM; so no run from reset stops,
whatever commands wait. -/
def Obligations.NoRunFromResetStops : Prop :=
  (∀ s : State, Legal s → burstInside s = true ∧ ∃ t, step s = .next t ∧ Legal t ∧ burstInside t = true) ∧
    ∀ (v : PinLevels) (cmds : List Instr), runsSafely (State.afterResetn v [] cmds)

/-- A port takes a command (R201, R202): in DETACHED or standby nothing crosses; a packet behind others or without room for its
reply joins the queue, or waits in it; in ATTACHED all but HELLO and IDENTIFY are answered NOT-READY; and arguments of the wrong
form are answered BAD-ARGUMENT. In none of these does anything but the port's own queues change.
Where the spec leaves a choice it is the model's, of logs 6, 7 and 9. -/
def Obligations.CommandsWaitOrAreTurnedAway : Prop :=
  ∀ (i : Instr) (h : CmdHead) (c : Command) (s : State), i.command? = some (h, c) →
    let k := s.pc.get h.port
    let here := k.cmdQueue.head? = some ⟨h.tag, h.argsOk, c⟩
    ((s.standby = true ∨ k.state = .detached) → exec i s = .next s ∨ exec i s = .next (settle s s)) ∧
    (s.standby = false → k.state ≠ .detached →
      (here → 4 ≤ k.replyQueue.length → exec i s = .next s ∨ exec i s = .next (settle s s)) ∧
      (¬ here → (k.cmdQueue ≠ [] ∨ 4 ≤ k.replyQueue.length) →
        let u := s.updPc h.port fun q =>
          if q.cmdQueue.length < 4 then { q with cmdQueue := q.cmdQueue ++ [⟨h.tag, h.argsOk, c⟩] } else q
        exec i s = .next u ∨ exec i s = .next (settle s u)) ∧
      (k.replyQueue.length < 4 → (here ∨ k.cmdQueue = []) →
        (k.state = .attached → takenAttached c = false →
          exec i s = .next (answered h .notReady .none s) ∨ exec i s = .next (settle s (answered h .notReady .none s))) ∧
        ((k.state = .ready ∨ takenAttached c = true) → h.argsOk = false → knownName c = true →
          exec i s = .next (answered h .badArgument .none s) ∨ exec i s = .next (settle s (answered h .badArgument .none s)))))

/-- What follows a command changes nothing in a calm state.
Where the spec leaves a choice it is the model's, of log 11. -/
def Obligations.SettleLeavesCalmStates : Prop := ∀ old s : State, Calm s → settle old s = s

namespace Sys2Proof.Claims

/-- The default cadence table (Table 2-5): class, shortest and longest on period, shortest and longest off period, repeat count. -/
def tableTwoFive : List CadenceEntry :=
  [⟨.dial, 1000, 10000, 0, 0, 1⟩, ⟨.busy, 400, 600, 400, 600, 2⟩, ⟨.ringback, 800, 2200, 2500, 4500, 1⟩,
   ⟨.congestion, 200, 300, 200, 300, 3⟩, ⟨.faxCalling, 400, 600, 2500, 3500, 1⟩, ⟨.spare, 20, 10000, 0, 10000, 0⟩,
   ⟨.spare, 20, 10000, 0, 10000, 0⟩, ⟨.spare, 20, 10000, 0, 10000, 0⟩]

end Sys2Proof.Claims

/-- The settings a master sets are changed by their own command alone, or go back to their defaults at a release of RESETN
(R28, R66, R90, R93, R112, R146, R171): line policy (R25), cadence table and tone times (R35), voice settings (R94, R113), access code (R113), fax settings (R147), link settings
(R172) and fax reserve (R73). Every other command, and RESET and standby with them, keeps them. -/
def Obligations.SettingsChangeOnlyByTheirCommand : Prop :=
  (∀ (i : Instr) (s t : State), exec i s = .next t → (∀ v, i ≠ .resetnRelease v) →
    ((∀ h n a, i ≠ .setLinePolicy h n a) → ∀ l, (t.lc.get l).policy = (s.lc.get l).policy) ∧
    ((∀ h n a, i ≠ .setCadence h n a) → ∀ l, (t.su.get l).cadence = (s.su.get l).cadence ∧
      (t.su.get l).toneOnTime = (s.su.get l).toneOnTime ∧ (t.su.get l).toneGapTime = (s.su.get l).toneGapTime) ∧
    ((∀ h n a, i ≠ .setVoice h n a) → ∀ c, (t.vp.get c).settings = (s.vp.get c).settings) ∧
    ((∀ h a, i ≠ .setAccessCode h a) → t.vm.accessCode = s.vm.accessCode) ∧
    ((∀ h n a, i ≠ .setFax h n a) → t.fxSet = s.fxSet) ∧
    ((∀ h a, i ≠ .setLink h a) → t.clSet = s.clSet) ∧
    ((∀ h b, i ≠ .setReserve h b) → t.store.reserve = s.store.reserve) ∧
    t.store.nBlocks = s.store.nBlocks) ∧
  ∀ (v : PinLevels) (s t : State), exec (.resetnRelease v) s = .next t →
    (∀ l, (t.lc.get l).policy = ⟨.auto, 4, false, true, true, 0xA0, 0xF0, .ifUnset, false, true⟩) ∧
    (∀ l, (t.su.get l).cadence.toList = tableTwoFive ∧ (t.su.get l).toneOnTime = 80 ∧ (t.su.get l).toneGapTime = 80) ∧
    (∀ c, (t.vp.get c).settings = ⟨16, 16, .r8000, .q4, .alt, 160, false, 6000, 120, false⟩) ∧
    t.vm.accessCode = none ∧ (∀ l, t.fxSet.get l = ⟨5, true, true, 0, 5, 8, 0, none, 1500⟩) ∧
    t.clSet = ⟨7, 128, 5, true, 6, 1500, 6, 1500⟩ ∧ t.store.reserve = 64

/-! ## Arithmetic and encodings -/

/-- A frame comes back as it was sent (R134, R135, R141, R143): the bits between the flags, with their zeros inserted and deleted
again, are judged GOOD and give the address and the content octets. -/
def Obligations.FrameComesBackAsSent : Prop :=
  ∀ (a : Byte) (content : List Byte), recordOf (destuff (frameBits a content)) = ⟨some a, .octets content, .good⟩

/-- Six ones in a row never stand between two flags (R134), and a frame one of whose data bits, before zero insertion, is spoiled is
never judged GOOD (R135, R143). -/
def Obligations.FramesHoldNoFlagAndShowOneBadBit : Prop :=
  (∀ bits : List Bool, noSix 0 (stuff bits) = true ∧ destuff (stuff bits) = bits) ∧
    ∀ (a : Byte) (content : List Byte) (k : Nat), k < 8 * (content.length + 3) →
      let bits := octetsBits ((a :: content) ++ checkOctets (a :: content))
      judgeBits (bits.set k (!bits[k]!)) = .badCheck

/-- Every frame of the link reads back from its octets (Table 9-3), its fields within their ranges, the payload of a DATA frame
within the length in force. -/
def Obligations.LinkFramesReadBack : Prop :=
  (∀ (m w p : Nat) (c : Fin 6), 1 ≤ w → w ≤ 15 → 16 ≤ p → p ≤ 256 →
    readLink m (LinkFrame.callUp w p c).octets = some (.callUp w p c) ∧
    readLink m (LinkFrame.callUpAck w p c).octets = some (.callUpAck w p c)) ∧
  (∀ (m n a : Nat) (poll : Bool) (bs : List Byte), n < 32 → a < 32 → bs ≠ [] → bs.length ≤ m →
    readLink m (LinkFrame.data n poll a bs).octets = some (.data n poll a bs)) ∧
  (∀ (m a : Nat) (fin : Bool), a < 32 →
    readLink m (LinkFrame.ack a fin).octets = some (.ack a fin) ∧ readLink m (LinkFrame.hold a).octets = some (.hold a) ∧
    readLink m (LinkFrame.ready a).octets = some (.ready a)) ∧
  (∀ (m a : Nat) (ns : List Nat), a < 32 → ns ≠ [] → ns.length ≤ 4 → (∀ n ∈ ns, n < 32) →
    readLink m (LinkFrame.resend a ns).octets = some (.resend a ns)) ∧
  ∀ (m : Nat) (i : Fin 6),
    readLink m (LinkFrame.rate i).octets = some (.rate i) ∧ readLink m (LinkFrame.rateOk i).octets = some (.rateOk i) ∧
    readLink m LinkFrame.close.octets = some .close ∧ readLink m LinkFrame.closeAck.octets = some .closeAck

/-- A sample through the prefilter of a recording that takes the gained samples one after another: the outputs so far. -/
def Sys2Proof.Claims.prefilterRun (r : Rate) : List Int → List Int → List Int × List Int
  | hist, [] => (hist, [])
  | hist, y :: ys =>
    let p := prefilter r hist y
    let q := prefilterRun r p.1 ys
    (q.1, p.2 ++ q.2)

/-- The outputs of a recording's prefilter from its first line sample to its stop. -/
def Sys2Proof.Claims.prefiltered (r : Rate) (ys : List Int) : List Int :=
  let p := prefilterRun r [] ys
  p.2 ++ prefilterEnd r p.1

/-- The neighbour `y[i]` of a sequence of `n` samples, mirrored at both ends. -/
def Sys2Proof.Claims.mirrorAt (ys : List Int) (i : Int) : Int :=
  let n : Int := ys.length
  let j := if i < 0 then -i else if n ≤ i then 2 * (n - 1) - i else i
  ys.getD j.toNat 0

/-- A resampler that takes its inputs one after another: what it holds, its position, and the outputs so far (R99). -/
def Sys2Proof.Claims.resampleFeed (S : Nat) : List Int → Nat → List Int → List Int × Nat × List Int
  | held, p, [] => (held, p, [])
  | held, p, u :: us =>
    let r := resampleRun 4 S (held ++ [u]) p
    let q := resampleFeed S r.1 r.2.1 us
    (q.1, q.2.1, r.2.2 ++ q.2.2)

/-- The prefilter (R98): below the line rate, each output is the rounded weighted mean of a sample and its neighbours, mirrored at
both ends; an output is produced when its second neighbour arrives, the history holding the last two samples; one sample alone
passes; the result needs no clamp. The prefilter of a recording takes its gained samples.

The steps of the resampler, and a storage rate of 9600 copies samples: the prefilter and the resampler pass every sample
unchanged (R98, R99).

A recording's resampler that takes its inputs one after another holds a position below 120 and gives, with what it gives at their end,
what it gives of the whole sequence.

The resampler at the end of its input (R99): from `m` samples it gives ceil(60 m / S) outputs, each between its two input
neighbours, a neighbour beyond the last taken by the mirror rule.
Where the spec leaves a choice it is the model's, of log 13. -/
def Obligations.PrefilterAndResamplerFollowTheirRules : Prop :=
  ((∀ (y : Int) (v : VoiceCtx), (v.intake y).1.hist = (prefilter v.format.rate v.hist y).1 ∧
      (v.intake y).1.lineCount = v.lineCount + 1) ∧
    ∀ (r : Rate) (ys : List Int), r ≠ .r9600 →
      (prefilterRun r [] ys).1 = ys.drop (ys.length - 2) ∧ (prefilterRun r [] ys).2.length = ys.length - 1 ∧
      (prefilterRun r [] ys).2 = (prefiltered r ys).take (ys.length - 1) ∧
      (prefiltered r ys).length = ys.length ∧
      (ys.length = 1 → prefiltered r ys = ys) ∧
      (2 ≤ ys.length → ∀ i : Nat, i < ys.length →
        (prefiltered r ys)[i]? =
          some ((mirrorAt ys (i - 1) + 2 * mirrorAt ys i + mirrorAt ys (i + 1) + 2) / 4)) ∧
      ((∀ y ∈ ys, -32768 ≤ y ∧ y ≤ 32767) → ∀ z ∈ prefiltered r ys, -32768 ≤ z ∧ z ≤ 32767)) ∧
  ((recordStep .r9600, recordStep .r8000, recordStep .r7200) = (60, 72, 80) ∧
    (playStep .r9600, playStep .r8000, playStep .r7200) = (60, 50, 45)) ∧
  (∀ (us : List Int) (r : Rate) (k : Nat), 60 * us.length ≤ recordStep r * k →
    let q := resampleFeed (recordStep r) [] 0 us
    q.2.1 < 120 ∧ q.2.2 ++ resampleEnd k (recordStep r) q.1 q.2.1 = resampleEnd k (recordStep r) us 0) ∧
  (∀ ys : List Int, prefiltered .r9600 ys = ys ∧ ∀ k : Nat, ys.length < k → resampleEnd k 60 ys 0 = ys) ∧
  (∀ (us : List Int) (S k : Nat), 0 < S → 60 * us.length ≤ S * k →
    (resampleEnd k S us 0).length = ceilDiv (60 * us.length) S ∧
    ∀ (n : Nat) (z : Int), (resampleEnd k S us 0)[n]? = some z →
      let a := us.getD (S * n / 60) 0
      let b := (us[S * n / 60 + 1]?).getD (mirrored us)
      min a b ≤ z ∧ z ≤ max a b ∧ z = (a * (60 - (S * n % 60 : Nat)) + b * (S * n % 60 : Nat) + 30) / 60)

/-- Q4 (R100, R101): the step table (Table 5-2), the nibble's sign and magnitude, the predictor and the step index after it, within
their ranges, and the decoder, from the same predictor and step index, comes to the same values as the coder.

Q8 (R102): the dither values, the code of one byte, decoding whatever the dither within its bounds, and, where the code does not
clip, the decoded sample next to the dithered one. -/
def Obligations.CodersFollowTheirTables : Prop :=
  ((List.range 48).map q4Step =
    [16, 19, 22, 25, 29, 33, 38, 43, 49, 56, 64, 73, 83, 94, 106, 120, 136, 154, 174, 196, 221, 249, 281, 317, 357, 402, 453,
     510, 574, 646, 727, 818, 921, 1037, 1167, 1313, 1478, 1663, 1871, 2105, 2369, 2666, 3000, 3376, 3799, 4274, 4809, 5411]) ∧
  (∀ (z p : Int) (k : Nat),
    let c := min 7 (4 * (z - p).natAbs / q4Step k)
    let adj : Int := if c < 2 then -1 else if c < 4 then 0 else (c : Int) - 3
    let move : Int := ((2 * c + 1) * q4Step k / 8 : Nat)
    (q4Encode z p k).1 = (if z < p then 8 else 0) + c ∧
    (q4Encode z p k).2.1 = max (-32768) (min 32767 (if z < p then p - move else p + move)) ∧
    ((q4Encode z p k).2.2 : Int) = max 0 (min 47 (k + adj))) ∧
  (∀ (z p : Int) (k : Nat),
    let r := q4Encode z p k
    r.1 ≤ 15 ∧ -32768 ≤ r.2.1 ∧ r.2.1 ≤ 32767 ∧ r.2.2 ≤ 47 ∧ q4Decode r.1 p k = (r.2.1, r.2.2) ∧
    (k ≤ 47 → -32768 ≤ p → p ≤ 32767 → -32768 ≤ z → z ≤ 32767 → (z - p).natAbs * 4 < 8 * q4Step k →
      (r.2.1 - z).natAbs ≤ q4Step k / 8 + 1)) ∧
  ((∀ seq j : Nat, ditherOf .none seq j = 128 ∧ ditherOf .alt seq (2 * j) = 64 ∧ ditherOf .alt seq (2 * j + 1) = 192 ∧
    ditherOf .altBlock (2 * seq) (2 * j) = 64 ∧ ditherOf .altBlock (2 * seq) (2 * j + 1) = 192 ∧
    ditherOf .altBlock (2 * seq + 1) (2 * j) = 192 ∧ ditherOf .altBlock (2 * seq + 1) (2 * j + 1) = 64) ∧
  ∀ (z : Int) (d : Dither) (seq j : Nat),
    let dv := ditherOf d seq j
    let q := q8Encode z dv
    q ≤ 127 ∧ -128 ≤ q ∧ -32640 ≤ q8Decode q ∧ q8Decode q ≤ 32640 ∧
    (-32768 ≤ z + dv → z + dv ≤ 32767 → -127 ≤ q8Decode q - (z + dv) ∧ q8Decode q - (z + dv) ≤ 128) ∧
    (32767 < z + dv → q = 127) ∧ (z + dv < -32768 → q = -128) ∧ (q % 256 + 128) % 256 - 128 = q)

/-- The gain stage (R96): floor(x g / 16) clamped to 16 bits, gain 16 passing every 16-bit sample and gain 0 giving 0. A recorded
sample, from the line codec or for LOCAL the local codec, enters the path after the record gain; a playback's resampler output leaves it
after the play gain. -/
def Obligations.GainScalesAndClamps : Prop :=
  (∀ (g : Nat) (x : Int), gain g x = max (-32768) (min 32767 ((x * g) / 16))) ∧
  (∀ x : BitVec 16, gain 16 (sampleOf x) = sampleOf x ∧ gain 0 (sampleOf x) = 0) ∧
  (∀ (c : CtxId) (x : Int) (s : State), recordSample c x s =
    let r := (s.vp.get c).intake (gain (s.vp.get c).settings.recGain x)
    recordOutputs c r.2 (s.updCtx c fun _ => r.1)) ∧
  (∀ (l : LineId) (x : Int) (s : State), (s.vp.get (ctxOf l)).activity = .recording →
    ∃ t, lineSampleOf l x s = recordSample (ctxOf l) x t ∧ t.vp = s.vp) ∧
  (∀ (x : Int) (s : State), s.vp.loc.activity = .recording → ∃ t, localSampleOf x s = recordSample .loc x t ∧ t.vp = s.vp) ∧
  ∀ (c : CtxId) (s : State),
    (playSample c s).2 = gain ((playOutput c s).1.vp.get c).settings.playGain (playOutput c s).2 ∧
    let v := (fillInputs c 8 s).vp.get c
    ∀ a b, v.held[v.pos / 60]? = some a → v.held[v.pos / 60 + 1]? = some b →
      (playOutput c s).2 = (a * (60 - (v.pos % 60 : Nat)) + b * (v.pos % 60 : Nat) + 30) / 60

/-- Coded samples placed one after another behind an eight-byte header. -/
def Sys2Proof.Claims.placedAll (code : Code) : Nat → List Nat → List Byte → List Byte
  | _, [], bs => bs
  | fill, v :: vs, bs => placedAll code (fill + 1) vs (placeCode code fill v bs)

/-- A voice block's header reads back (R103, R208, Table 11-7), whatever samples follow it.

Coded samples come back from the block they are placed in, in their order (R101, R103): Q4 two to a byte, the earlier in the low
half, and an odd count leaves the high half 0. -/
def Obligations.VoiceBlocksReadBack : Prop :=
  (∀ (seq count k : Nat) (p : Int) (f : VoiceFormat) (rest : List Byte), -32768 ≤ p → p ≤ 32767 →
    count ≤ blockSamples f.code → k ≤ 47 →
    let bs := headerBytes seq p count k f ++ rest
    (headerBytes seq p count k f).length = 8 ∧ headerP bs = p ∧ headerCount bs = count ∧ headerK bs = k ∧
      headerOk f bs = true ∧ leNat (bs.take 2) = seq % 65536 ∧ ∀ g : VoiceFormat, headerOk g bs = true → g = f) ∧
  (∀ (code : Code) (hdr : List Byte) (vs : List Nat), hdr.length = 8 →
    (∀ v ∈ vs, v < (match code with | .q4 => 16 | .q8 => 256)) →
    let bs := placedAll code 0 vs hdr
    bs.length = 8 + (match code with | .q4 => (vs.length + 1) / 2 | .q8 => vs.length) ∧ bs.take 8 = hdr ∧
    (∀ i v, vs[i]? = some v → codedAt code bs i = v) ∧
    (code = .q4 → vs.length % 2 = 1 → codedAt code bs vs.length = 0))

/-- The page verdict (R158): GOOD, POOR or BAD by the bad lines and the longest run of them, a figure equal to its limit passing. A
PAGE-DONE judges the page in progress by its counts and the line's tolerance and run limit; a page without a page entry, as a page of no
line is, keeps and frees nothing. -/
def Obligations.PageVerdictByItsLimits : Prop :=
  (∀ lines bad run t u : Nat,
    (judgePage lines bad run t u = .good ↔ 0 < lines ∧ bad * 100 ≤ lines * t ∧ run ≤ u) ∧
    (judgePage lines bad run t u = .poor ↔
      ¬ (bad * 100 ≤ lines * t ∧ run ≤ u) ∧ 0 < lines ∧ bad * 100 ≤ 2 * lines * t ∧ run ≤ 2 * u) ∧
    (judgePage lines bad run t u = .bad ↔ lines = 0 ∨ 2 * lines * t < bad * 100 ∨ 2 * u < run) ∧
    judgePage lines bad run t u ≠ .pending) ∧
  (∀ (l : LineId) (e : PageEnd) (s : State), (s.fw.get l).storeFull = false → (s.fw.get l).trained = true →
    let x := s.fx.get l
    let u := takePageDone l e s
    (u.fw.get l).lastVerdict =
      some (judgePage x.received x.badLines x.longestBad (s.fxSet.get l).tolerance (s.fxSet.get l).runLimit) ∧
    ((s.fw.get l).pageEntry = none → u.store = s.store ∧ (u.fx.get l).kept = x.kept)) ∧
  ∀ (l : LineId) (s : State), ((s.fx.get l).document = none → (s.fw.get l).pageEntry = none) → (s.fx.get l).received = 0 →
    ((endPageData l s).fw.get l).pageEntry = none

/-- Reading the DRAM after a write (04): the byte written comes back, every other byte is as it was, and the memory keeps its
canonical form; so do bytes written in a row.
Where the spec leaves a choice it is the model's, of log 3. -/
def Obligations.DramReadsBackWhatWasWritten : Prop :=
  ∀ (a : Nat) (bs : List Byte) (m : List Host.Cell), Memory.wf m = true →
    Memory.wf (memWriteBytes a bs m) = true ∧ memReadBytes a bs.length (memWriteBytes a bs m) = bs ∧
    (∀ x, (x < a ∨ a + bs.length ≤ x) → memRead x (memWriteBytes a bs m) = memRead x m) ∧
    ∀ m', Memory.wf m' = true → (∀ x, memRead x m = memRead x m') → m = m'

/-! ## Reset, standby and the ports -/

namespace Sys2Proof.Claims

/-- A line record at rest (R1, R26, Table 1-7): FAULT without loop voltage, EXTENSION with an extension off hook, else IDLE. -/
def lineAtRest (p : LinePolicy) (loop ext : Bool) : LineRec :=
  { state := if loop = false then .fault else if ext = true then .extension else .idle, controller := .none, ringCount := 0,
    snapshot := 0, caller := none, purpose := .none, entryRef := none, lastRingEnd := none, window := .closed,
    changes := ⟨.empty, .empty⟩, faultTimer := .stopped, loopBreak := false, extRemembered := false, hook := false,
    ringWait := false, ringGone := false, due := false, decided := false, callerOctets := [], callerFault := false, policy := p }

/-- A Signal Unit's reset values, with a cadence table, its keypad-tone times and a carrier-loss time (R28, R44, Table 2-1). -/
structure UnitAtReset (table : List CadenceEntry) (onTime gapTime lossTime : Nat) (u : SignalUnit) : Prop where
  cadence : u.cadence.toList = table
  counters : ∀ n : Fin 8, u.counters[n] = ⟨0, none, false, false⟩
  rest : u = { u with
    mode := .quiet, returnMode := none, plain := false, training := false, rate := 0, ownCeiling := 5, peerCeiling := 5,
    quality := 0, carrier := false, watch := false, lossTime := lossTime, lossTimer := false, detector := .none,
    generation := none, toneOnTime := onTime, toneGapTime := gapTime, onAt := none, pairOn := none, offAt := none,
    onDuration := none, offDuration := none }

/-- A Frame Channel's reset values (R132, Table 7-1). -/
def ChanAtReset (c : Channel) : Prop :=
  c = { c with
    owner := .none, txState := .off, txMode := .framed, fill := .flags, txQueue := [], onesRun := 0, rxState := .off,
    rxMode := .framed, ownAddress := 0xFF, filter := .off, limit := 300, rxQueue := [],
    counts := ⟨0, 0, 0, 0, 0, 0, 0, 0, 0, 0⟩, rxAddress := none, nextTx := none, dry := false, reports := [] }

/-- A fax session record's reset values (R146, Table 8-1). -/
def SessionAtReset (x : FaxSession) : Prop :=
  x = ⟨.none, none, none, none, none, none, false, 0, none, 0, false, 0, 0, 0, 0, 0, 0, false, [], none, 0, none⟩

/-- The link record's reset values, with a last outcome (R171, R189, Table 9-1). -/
def LinkAtReset (o : Option LinkOutcome) (c : LinkRec) : Prop :=
  c = { state := .ended, returnState := none, role := .caller, line := none, window := 0, payload := 0, ceiling := 0, rate := 0,
        quality := 0, s := 0, outstanding := [], retries := 0, timer := .stopped, peerBusy := false, ownBusy := false, v := 0,
        ahead := [], ackDue := false, history := [], goodRun := 0, proposal := none, closeCount := 0, built := 0, sentAgain := 0,
        octetsSent := 0, octetsDelivered := 0, dropped := 0, outcome := o }

/-- The Voice Message Controller's reset values, with an access code (R112, R131). -/
def VmAtReset (code : Option (List (Fin 10))) (v : Vm) : Prop :=
  v.accessCode = code ∧ v.holder = .none ∧ (∀ l, v.session.get l = .none 0) ∧ v.localPort = none ∧
    ∀ c, v.report.get c = ⟨.none, none, none, 0, none, none, none, false⟩

/-- An UNBOUND pair of streams (R190). -/
def unboundPair : Streams :=
  ⟨⟨.unbound, none, 0, [], false, none, false, 0, 0, 0, .header [], false⟩, ⟨.unbound, none, 0, [], none, false, false, 0, 0, false⟩⟩

end Sys2Proof.Claims

/-- RESETN_RELEASE: every block at its reset values, by the levels of the inputs; the DRAM content and the waiting commands are kept
(R1, R28, R45, R55, R66, R90, R93, R112, R132, R146, R171, R190, R199).
Where the spec leaves a choice it is the model's, of logs 3, 8 and 33. -/
def Obligations.ResetnReleaseSetsEveryBlock : Prop :=
  ∀ (v : PinLevels) (s : State), ∃ t, exec (.resetnRelease v) s = .next t ∧ t.pending = s.pending ∧ t.standby = false ∧
    t.pins = ⟨⟨v.loop0, v.loop1⟩, ⟨v.ext0, v.ext1⟩, v.present, v.ppLink, v.msz1, v.msz0⟩ ∧
    (let policy : LinePolicy := ⟨.auto, 4, false, true, true, 0xA0, 0xF0, .ifUnset, false, true⟩
     t.lc = ⟨lineAtRest policy v.loop0 v.ext0, lineAtRest policy v.loop1 v.ext1⟩) ∧
    (∀ l, UnitAtReset tableTwoFive 80 80 1500 (t.su.get l)) ∧
    (∀ l, (t.dq.get l).record = ⟨none, .idle, [], 0, false, false, 0, 8, .voice, none⟩) ∧
    (∀ n : Fin 8, t.queue[n] = ⟨.empty, 0, none, [], false, .ringOnly, none, .either, none, 0, 0, 0, 0, 0, none⟩) ∧
    t.queueTime = 0 ∧ t.createCounter = 0 ∧ t.finishCounter = 0 ∧
    (t.store.nBlocks = (match v.msz1, v.msz0 with | false, true => 4096 | true, false => 8192 | _, _ => 2048) ∧
      t.store.freeList = List.range t.store.nBlocks ∧ t.store.reserve = 64 ∧ t.store.seqCounter = 0 ∧
      (∀ n : Fin 128, t.store.dir[n].state = .free) ∧ (∀ k : Fin 256, t.store.pages[k].inUse = false) ∧ t.store.handles = [] ∧
      t.store.newCounts = [0, 0, 0, 0, 0] ∧ t.store.dram = s.store.dram ∧
      t.arb = ⟨false, none, .fax .line1, ⟨.pp, .outbound⟩⟩) ∧
    t.tod = ⟨⟨1, 1, 0, 0, 0⟩, false⟩ ∧
    (∀ c, (t.vp.get c).activity = .idle ∧ (t.vp.get c).settings = ⟨16, 16, .r8000, .q4, .alt, 160, false, 6000, 120, false⟩ ∧
      (t.vp.get c).hist = [] ∧ (t.vp.get c).held = [] ∧ (t.vp.get c).pos = 0 ∧ (t.vp.get c).pred = 0 ∧ (t.vp.get c).step = 0 ∧
      (t.vp.get c).silenceRun = 0 ∧ (t.vp.get c).lineCount = 0 ∧ (t.vp.get c).blockSeq = 0 ∧ (t.vp.get c).dropped = 0) ∧
    VmAtReset none t.vm ∧ (∀ l, ChanAtReset (t.fc.get l)) ∧
    (∀ l, SessionAtReset (t.fx.get l) ∧ t.fxSet.get l = ⟨5, true, true, 0, 5, 8, 0, none, 1500⟩) ∧
    LinkAtReset none t.cl ∧ t.clSet = ⟨7, 128, 5, true, 6, 1500, 6, 1500⟩ ∧
    (∀ p, t.st.get p = unboundPair) ∧
    ∀ p, t.pc.get p = ⟨if (match p with | .cp => v.present | .pp => v.ppLink) then .attached else .detached,
      [], [], [], [.line, .caller, .call, .link, .fax, .voice, .store, .stream], [], [], .inbound⟩

namespace Sys2Proof.Claims

/-- The storage samples of 1 s at an entry's storage rate (R91). -/
def oneSecond (f : VoiceFormat) : Nat := match f.rate with | .r7200 => 7200 | .r8000 => 8000 | .r9600 => 9600

/-- Two entries of which the completion of one replaces the other: greetings of one mailbox, or announcements (R81). -/
def Rivals (a b : DirEntry) : Prop := (a.kind = .greeting ∨ a.kind = .announce) ∧ b.kind = a.kind ∧ b.mailbox = a.mailbox

/-- The pages of a fax left in WRITING that are kept (R91): of a FAX-IN all but a last one without committed bytes, of a FAX-OUT the complete page
sections. -/
def pagesKept (e : DirEntry) (st : Store) : List (Fin 256) :=
  if e.kind = .faxIn then
    (match e.pageList.getLast? with
     | some k => if e.committed ≤ st.pages[k].start then e.pageList.dropLast else e.pageList
     | none => [])
  else e.pageList.filter fun k => st.pages[k].verdict = .good ∧ st.pages[k].start + st.pages[k].byteLength ≤ e.committed

/-- A fax left in WRITING whose last kept page is `k` has been completed (R72, R91): to its committed length, a last FAX-IN page still PENDING taking the
verdict BAD, or to the end of its last complete section. -/
def FaxCompleted (n : Fin 128) (k : Fin 256) (a b : Store) : Prop :=
  let e := a.dir[n]
  let len := if e.kind = .faxIn then e.committed else a.pages[k].start + a.pages[k].byteLength
  b.dir[n] = { e with
    state := .complete, length := len, committed := len, truncated := true, stop := none, completed := true,
    blocks := e.blocks.take ((len + 511) / 512), pageList := pagesKept e a } ∧
  (∀ j ∈ pagesKept e a, j ≠ k → b.pages[j] = a.pages[j]) ∧
  b.pages[k] = if e.kind = .faxIn ∧ a.pages[k].verdict = .pending then
      { a.pages[k] with verdict := .bad, byteLength := len - a.pages[k].start } else a.pages[k]

/-- What the RESET command and the release of STANDBYN leave of the store (R91): its users are at rest and its content stays. A
COMPLETE entry stays as it is, but for a greeting or announcement that one completed here replaces (R81). An entry in WRITING is cut back to its
committed length and judged by its kind: a voice entry of less than 1 s, a FAX-IN left without a page and a FAX-OUT without a complete section are discarded; any other
is completed. -/
structure StoreAfterReset (a b : Store) : Prop where
  kept : b.handles = [] ∧ b.nBlocks = a.nBlocks ∧ b.reserve = a.reserve ∧ b.seqCounter = a.seqCounter
  atRest : (∀ n : Fin 128, a.dir[n].state = .free ∨ a.dir[n].state = .complete) → b = { a with handles := [] }
  gone : ∀ n : Fin 128, a.dir[n].state = .free ∨ a.dir[n].state = .deletePending → b.dir[n].state = .free
  stays : ∀ n : Fin 128, a.dir[n].state = .complete →
    (∀ m : Fin 128, a.dir[m].state = .writing → Rivals a.dir[m] a.dir[n] →
      ∃ f, a.dir[m].format = some f ∧ a.dir[m].committed < oneSecond f) →
    b.dir[n] = { a.dir[n] with pageList := b.dir[n].pageList } ∧
      ((∀ m : Fin 128, ∀ k ∈ a.dir[m].pageList, a.pages[k].owner = m) → b.dir[n].pageList = a.dir[n].pageList)
  replaced : ∀ (n m : Fin 128) (f : VoiceFormat), a.dir[n].state = .complete → a.dir[m].state = .writing → Rivals a.dir[m] a.dir[n] →
    a.dir[m].format = some f → oneSecond f ≤ a.dir[m].committed → b.dir[n].state = .free
  ended : ∀ n : Fin 128, b.dir[n].state = .free ∨ b.dir[n].state = .complete
  writing : ∀ (n : Fin 128) (f : VoiceFormat), a.dir[n].state = .writing → a.dir[n].kind ≠ .faxIn → a.dir[n].kind ≠ .faxOut →
    a.dir[n].format = some f →
    (a.dir[n].committed < oneSecond f → b.dir[n].state = .free) ∧
    (oneSecond f ≤ a.dir[n].committed →
      (∀ m : Fin 128, m ≠ n → a.dir[m].state = .writing → ¬ Rivals a.dir[m] a.dir[n]) →
      b.dir[n] = { a.dir[n] with
        state := .complete, length := a.dir[n].committed, truncated := true, stop := some .stopped, completed := true,
        blocks := b.dir[n].blocks, pageList := b.dir[n].pageList })
  fax : ∀ n : Fin 128, a.dir[n].state = .writing → a.dir[n].kind = .faxIn ∨ a.dir[n].kind = .faxOut →
    (∀ m : Fin 128, ∀ k ∈ a.dir[m].pageList, a.pages[k].owner = m) → a.dir[n].pageList.Nodup →
    ((pagesKept a.dir[n] a).getLast? = none → b.dir[n].state = .free) ∧
    (∀ k, (pagesKept a.dir[n] a).getLast? = some k → FaxCompleted n k a b) ∧
    ∀ k ∈ a.dir[n].pageList, k ∉ pagesKept a.dir[n] a → b.pages[k].inUse = false

/-- What the RESET command and the release of STANDBYN leave of `s` (R26, R44, R65, R91, R111, R131, R145, R170, R189, R197, R206), the
ports apart: everything ends, and the settings, the clock, queue time, the DRAM's size and the stored messages stay. -/
structure AfterReset (s t : State) : Prop where
  kept : t.pins = s.pins ∧ t.pending = s.pending ∧ t.queueTime = s.queueTime ∧ t.tod = s.tod ∧ t.fxSet = s.fxSet ∧
    t.clSet = s.clSet ∧ t.standby = false
  lines : ∀ l, t.lc.get l = lineAtRest (s.lc.get l).policy (s.pins.loop.get l) (s.pins.ext.get l)
  units : ∀ l, UnitAtReset (s.su.get l).cadence.toList (s.su.get l).toneOnTime (s.su.get l).toneGapTime (s.su.get l).lossTime
    (t.su.get l)
  dials : ∀ l, (t.dq.get l).record = { (s.dq.get l).record with phase := .idle, owner := none }
  calls : (∀ n : Fin 8, t.queue[n].state = .empty) ∧ t.createCounter = 0 ∧ t.finishCounter = 0
  store : StoreAfterReset s.store t.store
  contexts : ∀ c, t.vp.get c = .idle (s.vp.get c).settings
  messages : VmAtReset s.vm.accessCode t.vm
  channels : ∀ l, ChanAtReset (t.fc.get l)
  faxes : ∀ l, SessionAtReset (t.fx.get l)
  link : LinkAtReset s.cl.outcome t.cl
  streams : ∀ p, t.st.get p = unboundPair

/-- A port with empty queues in a state, its mask enabling every class. -/
def emptyPort (st : PortState) : PortCtl := ⟨st, [], [], [], allClasses, [], [], .inbound⟩

/-- The port its master's presence gives after a reset. -/
def portByPin (present : Bool) : PortCtl := emptyPort (if present then .attached else .detached)

/-- Nothing that port `p` ends in leaving writes the entry: no recording, no RECORD in its beep, no fax receiver and no inbound stream of the port; and
no line of the port carries a session. -/
def Unwritten (m : Fin 128) (p : PortId) (s : State) : Prop :=
  (∀ c, (s.vp.get c).activity = .recording → (s.vp.get c).entry ≠ some m) ∧
  (∀ l, s.vm.pendingRecord.get l ≠ some m ∧ ((s.fx.get l).role = .receiver → (s.fx.get l).document ≠ some m) ∧
    ((s.lc.get l).controller = .port p → (s.vm.session.get l).phase = .none)) ∧
  ∀ k x, (s.st.get p).inb.binding = some (.handle k) → s.store.handle? (.port p k) = some x → x.entry ≠ m

/-- Port `p` has left READY for `st` (R18, R92, R197, R200): its queues are empty, it holds no line and no handle, its flags are empty, and its
streams that no link holds are UNBOUND. The other port keeps its state, its mask and its command and reply queues; its lines, but for one whose link
ends; and its handles and streams, but for those on an entry whose write ends. -/
structure Left (p : PortId) (st : PortState) (s u : State) : Prop where
  port : u.pc.get p = emptyPort st
  lines : ∀ l, (u.lc.get l).controller ≠ .port p ∧ (u.lc.get l).changes.get p = .empty
  handles : ∀ n, u.store.handle? (.port p n) = none
  streams : (s.st.get p).inb.binding ≠ some .link → (s.st.get p).outb.binding ≠ some .link →
    u.st.get p = unboundPair
  other : (u.pc.get (otherPort p)).state = (s.pc.get (otherPort p)).state ∧
    (u.pc.get (otherPort p)).mask = (s.pc.get (otherPort p)).mask ∧
    (u.pc.get (otherPort p)).cmdQueue = (s.pc.get (otherPort p)).cmdQueue ∧
    (u.pc.get (otherPort p)).replyQueue = (s.pc.get (otherPort p)).replyQueue
  otherLines : ∀ l, (s.lc.get l).controller = .port (otherPort p) → (p = .cp → s.cl.state = .ended ∨ s.cl.line ≠ some l) →
    u.lc.get l = { s.lc.get l with changes := (s.lc.get l).changes.set p .empty } ∧ u.dq.get l = s.dq.get l ∧
    u.fx.get l = s.fx.get l ∧ u.fw.get l = s.fw.get l ∧
    ((∀ x, s.store.handle? (playHolder (ctxOf l)) = some x → Unwritten x.entry p s) → u.su.get l = s.su.get l ∧ u.fc.get l = s.fc.get l)
  otherHandles : ∀ k, (s.store.handle? (.port (otherPort p) k) = none → u.store.handle? (.port (otherPort p) k) = none) ∧
    ∀ x, s.store.handle? (.port (otherPort p) k) = some x → Unwritten x.entry p s →
      u.store.handle? (.port (otherPort p) k) = some x
  otherStreams : (p = .pp → s.cl.state = .ended ∨ ∀ l, s.cl.line = some l → (s.lc.get l).controller ≠ .port p) →
    (∀ k x, (s.st.get (otherPort p)).outb.binding = some (.handle k) → s.store.handle? (.port (otherPort p) k) = some x →
      Unwritten x.entry p s) →
    u.st.get (otherPort p) = s.st.get (otherPort p)
  kept : u.pending = s.pending ∧ u.standby = s.standby ∧ u.pins = s.pins ∧ u.queueTime = s.queueTime ∧ u.tod = s.tod

end Sys2Proof.Claims

namespace Sys2Proof.Claims

/-- The commands that act in standby: the release of a pin, the clocks, refresh, and the levels of the inputs (R27, R92, R197, R207). -/
def ActsInStandby : Instr → Prop
  | .resetnRelease _ => True
  | .standbynRelease => True
  | .queueTimeTick => True
  | .clockTick => True
  | .burstEnd => True
  | .refreshRequest => True
  | .loopVoltageLoss _ => True
  | .loopVoltageReturn _ => True
  | .extChange _ _ => True
  | .presentHigh => True
  | .presentLow => True
  | .ppLinkUp => True
  | .ppLinkDown => True
  | _ => False

end Sys2Proof.Claims

/-- In standby only the pin levels, the clocks and refresh go on: a pin event keeps its level alone, and any other event or command but
the release of STANDBYN or RESETN leaves the state as it is (R27, R44, R92, R197, R207).

STANDBYN_ASSERT and STANDBYN_RELEASE (R27, R44, R91, R92, R111, R131, R145, R170, R189, R197, R207): every call, session and link ends and
the ports' queues are emptied, the store, the diallers, the call queue, the contexts and the streams standing still; the release sets every
block as the RESET command does, and each port by its master's presence.

RESET (R206): every block as at a reset command, the stored messages kept, each port by its master's presence, and the asking port
holds the OK reply alone.

Either recovers the store (R91): a voice message or greeting in WRITING is kept at its committed length if that is one second, a greeting
replacing the one before it, and a fax at its pages kept; else it is discarded.
Where the spec leaves a choice it is the model's, of logs 8, 18, 23, 41 and 68. -/
def Obligations.StandbyAndResetEndEverything : Prop :=
  (∀ s : State, s.standby = true →
    (∀ i, ¬ ActsInStandby i → exec i s = .next s) ∧
    (∀ l,
      exec (.loopVoltageLoss l) s = .next { s with pins := { s.pins with loop := s.pins.loop.set l false } } ∧
      exec (.loopVoltageReturn l) s = .next { s with pins := { s.pins with loop := s.pins.loop.set l true } } ∧
      ∀ off, exec (.extChange l off) s = .next { s with pins := { s.pins with ext := s.pins.ext.set l off } }) ∧
    exec .presentHigh s = .next { s with pins := { s.pins with present := true } } ∧
    exec .presentLow s = .next { s with pins := { s.pins with present := false } } ∧
    exec .ppLinkUp s = .next { s with pins := { s.pins with ppLink := true } } ∧
    exec .ppLinkDown s = .next { s with pins := { s.pins with ppLink := false } }) ∧
  (∀ s : State, Runs s → ∃ t, exec .standbynAssert s = .next t ∧ t.standby = true ∧
    (∀ l, t.lc.get l = lineAtRest (s.lc.get l).policy (s.pins.loop.get l) (s.pins.ext.get l)) ∧
    (∀ l, UnitAtReset (s.su.get l).cadence.toList (s.su.get l).toneOnTime (s.su.get l).toneGapTime (s.su.get l).lossTime
      (t.su.get l)) ∧
    (∀ l, (t.fc.get l).owner = .none ∧ (t.fc.get l).txState = .off ∧ (t.fc.get l).rxState = .off ∧ (t.fc.get l).txQueue = [] ∧
      (t.fc.get l).rxQueue = [] ∧ SessionAtReset (t.fx.get l)) ∧
    VmAtReset s.vm.accessCode t.vm ∧ LinkAtReset s.cl.outcome t.cl ∧
    (∀ p, (t.pc.get p).cmdQueue = [] ∧ (t.pc.get p).replyQueue = [] ∧ (t.pc.get p).noticeQueue = [] ∧
      attention t p = false ∧ intakeOpen t p = false) ∧
    t = { s with standby := true, lc := t.lc, su := t.su, vm := t.vm, fc := t.fc, fx := t.fx, fw := t.fw, cl := t.cl,
                 cw := t.cw, pc := t.pc }) ∧
  (∀ s : State, s.standby = true → ∃ t, exec .standbynRelease s = .next t ∧ AfterReset s t ∧
    t.pc = ⟨portByPin s.pins.present, portByPin s.pins.ppLink⟩ ∧
    (s.arb.refresh = false ∨ s.arb.current.isSome → t.arb = s.arb)) ∧
  (∀ s : State, Runs s → exec .standbynRelease s = .next s) ∧
  ∀ (h : CmdHead) (s : State), Takes h .reset s → ∃ u, AfterReset s u ∧ u.arb = s.arb ∧
    u.pc = ⟨portByPin s.pins.present, portByPin s.pins.ppLink⟩ ∧
    Follows (.reset h) s (pushReply h.port ⟨h.tag, .ok, .none⟩ u)

/-- PRESENT_HIGH, PRESENT_LOW, PP_LINK_UP and PP_LINK_DOWN (R199): a DETACHED port becomes ATTACHED, an ATTACHED one DETACHED, its queues
empty and its mask enabling every class; in the other states nothing but the level changes, READY apart.

A port leaves READY (R200) when its master goes (PRESENT_LOW, PP_LINK_DOWN), by RESET_PORT (R207), which leaves the OK reply alone in
its queue, or at a bad packet header (R201); a bad header in ATTACHED empties the port's queues. The other port's lines, handles and streams
are left as they are (R92, R197, R200).
Where the spec leaves a choice it is the model's, of log 8. -/
def Obligations.PortsFollowTheirMasters : Prop :=
  (∀ s : State, Runs s →
    (exec .presentHigh s = .next
      { s with pins := { s.pins with present := true },
               pc := if s.pc.cp.state = .detached then { s.pc with cp := emptyPort .attached } else s.pc }) ∧
    (exec .ppLinkUp s = .next
      { s with pins := { s.pins with ppLink := true },
               pc := if s.pc.pp.state = .detached then { s.pc with pp := emptyPort .attached } else s.pc }) ∧
    (s.pc.cp.state ≠ .ready →
      let t := { s with pins := { s.pins with present := false } }
      exec .presentLow s = .next (settle t
        { t with pc := if s.pc.cp.state = .attached then { s.pc with cp := emptyPort .detached } else s.pc })) ∧
    (s.pc.pp.state ≠ .ready →
      let t := { s with pins := { s.pins with ppLink := false } }
      exec .ppLinkDown s = .next (settle t
        { t with pc := if s.pc.pp.state = .attached then { s.pc with pp := emptyPort .detached } else s.pc }))) ∧
  (∀ s : State, Runs s →
    (s.pc.cp.state = .ready → ∃ u, Left .cp .detached { s with pins := { s.pins with present := false } } u ∧
      exec .presentLow s = .next (settle { s with pins := { s.pins with present := false } } u)) ∧
    (s.pc.pp.state = .ready → ∃ u, Left .pp .detached { s with pins := { s.pins with ppLink := false } } u ∧
      exec .ppLinkDown s = .next (settle { s with pins := { s.pins with ppLink := false } } u)) ∧
    (∀ h : CmdHead, Takes h .resetPort s → ∃ u, Left h.port .attached s u ∧
      Follows (.resetPort h) s (pushReply h.port ⟨h.tag, .ok, .none⟩ u)) ∧
    ∀ (p : PortId) (kind : Byte) (n : Nat), (kind.toNat = 0 ∨ 5 < kind.toNat ∨ 4096 < n) →
      (s.pc.get p).cmdQueue.length < 4 →
      ((s.pc.get p).state = .ready → ∃ u, Left p .attached s u ∧ Follows (.badPacketHeader p kind n) s u) ∧
      ((s.pc.get p).state = .attached →
        Follows (.badPacketHeader p kind n) s { s with pc := s.pc.set p (emptyPort .attached) }) ∧
      ((s.pc.get p).state = .detached → Follows (.badPacketHeader p kind n) s s))

/-- HELLO, IDENTIFY and SET NOTICES (R203). HELLO moves an ATTACHED port to READY with an empty notice queue, every class enabled and
empty change flags, and in READY changes nothing; it answers the fields IDENTIFY answers; SET NOTICES takes the new mask and removes
every pending notice of a class masked, and refuses an unknown class. -/
def Obligations.HelloIdentifyAndSetNotices : Prop :=
  ∀ (h : CmdHead) (s : State),
    let fields := fun st => ReplyBody.identity "UBECTA" "TAVICOR 2408" Config.designRevision (s.store.nBlocks * 512) s.store.nBlocks
      h.port st
    (1 ≤ Config.designRevision ∧ Config.designRevision ≤ 255) ∧
    (Takes h .identify s → OnlyAnswers (.identify h) h .ok (fields .ready) s) ∧
    (Takes h .hello s → Follows (.hello h) s (answered h .ok (fields .ready) s)) ∧
    (Runs s → h.argsOk = true → (s.pc.get h.port).state = .attached → (s.pc.get h.port).cmdQueue = [] →
      (s.pc.get h.port).replyQueue.length < 4 →
      OnlyAnswers (.identify h) h .ok (fields .attached) s ∧
      Follows (.hello h) s (answered h .ok (fields .ready)
        { s with lc := ⟨{ s.lc.line0 with changes := s.lc.line0.changes.set h.port .empty },
                        { s.lc.line1 with changes := s.lc.line1.changes.set h.port .empty }⟩,
                 pc := s.pc.set h.port { s.pc.get h.port with state := .ready, noticeQueue := [], mask := allClasses } })) ∧
    (∀ cs : List NoticeClass, Takes h (.setNotices (cs.map some)) s →
      exec (.setNotices h (cs.map some)) s = .next (answered h .ok .none
        (s.updPc h.port fun c => { c with mask := allClasses.filter fun x => cs.contains x,
                                          noticeQueue := c.noticeQueue.filter fun n => cs.contains n.cls }))) ∧
    ∀ cs : List (Option NoticeClass), none ∈ cs → Takes h (.setNotices cs) s →
      OnlyAnswers (.setNotices h cs) h .badArgument .none s

/-- Raising a notice towards a port (R204): dropped unless the port is READY with the class enabled; joined to the pending entry of its
class and subject, which keeps its place and takes the union of both; appended at the tail otherwise. -/
def Obligations.NoticesJoinTheirPendingEntry : Prop :=
  ∀ (p : PortId) (n : Notice) (s : State),
    let q := (s.pc.get p).noticeQueue
    let t := (raiseTo p n s).pc.get p
    raiseTo p n s = { s with pc := s.pc.set p { s.pc.get p with noticeQueue := t.noticeQueue } } ∧
    ((s.pc.get p).state ≠ .ready ∨ n.cls ∉ (s.pc.get p).mask → t.noticeQueue = q) ∧
    ((s.pc.get p).state = .ready → n.cls ∈ (s.pc.get p).mask →
      ((∀ m ∈ q, m.cls ≠ n.cls ∨ m.subject ≠ n.subject) → t.noticeQueue = q ++ [n]) ∧
      (∀ (a b : List Notice) (m : Notice), q = a ++ m :: b → m.cls = n.cls → m.subject = n.subject →
        (∀ x ∈ a, x.cls ≠ n.cls ∨ x.subject ≠ n.subject) →
        ∃ w, t.noticeQueue = a ++ ⟨m.cls, m.subject, w⟩ :: b ∧ ∀ x, x ∈ w ↔ x ∈ m.words ∨ x ∈ n.words))

/-- COMMAND_PACKET_ARRIVAL, UNKNOWN_COMMAND, READ_NOTICE and REPLY_READ (R201, R202, R205): a packet that arrives joins a command queue of fewer
than four; a name outside Table 11-3 is answered BAD-COMMAND; READ NOTICE gives the head of the notice queue and takes it off; a reply read leaves its queue.
Where the spec leaves a choice it is the model's, of logs 6, 8, 25 and 32. -/
def Obligations.PacketsCrossThePort : Prop :=
  (∀ (p : PortId) (tag : BitVec 8) (ok : Bool) (c : Command) (s : State), Runs s → (s.pc.get p).state ≠ .detached →
    exec (.commandPacketArrival p tag ok c) s = .next (s.updPc p fun k =>
      if k.cmdQueue.length < 4 then { k with cmdQueue := k.cmdQueue ++ [⟨tag, ok, c⟩] } else k)) ∧
  (∀ (h : CmdHead) (name : List Byte) (s : State), Takes h (.unknown name) s →
    OnlyAnswers (.unknownCommand h name) h .badCommand .none s) ∧
  (∀ (h : CmdHead) (s : State), Takes h .readNotice s →
    ((s.pc.get h.port).noticeQueue = [] → OnlyAnswers (.readNotice h) h .ok (.pending 0) s) ∧
    ∀ (n : Notice) (ns : List Notice), (s.pc.get h.port).noticeQueue = n :: ns →
      exec (.readNotice h) s = .next (s.updPc h.port fun c =>
        { c with cmdQueue := c.cmdQueue.tail, noticeQueue := ns,
                 replyQueue := c.replyQueue ++ [⟨some ⟨h.tag, .ok, .pending ns.length⟩, some (noticePacket h.tag n s)⟩] })) ∧
  ∀ (p : PortId) (s : State), Runs s → (s.pc.get p).state ≠ .detached →
    (∀ r n es, (s.pc.get p).replyQueue = ⟨some r, some n⟩ :: es →
      exec (.replyRead p) s = .next (s.updPc p fun c => { c with replyQueue := ⟨none, some n⟩ :: es })) ∧
    (∀ e es, (s.pc.get p).replyQueue = e :: es → e.reply = none ∨ e.notice = none →
      exec (.replyRead p) s = .next (s.updPc p fun c => { c with replyQueue := es })) ∧
    ((s.pc.get p).replyQueue = [] →
      ∃ c, exec (.replyRead p) s = .next (s.updPc p fun k =>
          { k with creditOut := c.creditOut, dataOut := c.dataOut, lastStream := c.lastStream }) ∧
        (∀ k ks, (s.pc.get p).creditOut = k :: ks → ((s.pc.get p).dataOut = [] ∨ (s.pc.get p).lastStream = .outbound) →
          c = { s.pc.get p with creditOut := ks, lastStream := .inbound }) ∧
        (∀ d ds, (s.pc.get p).dataOut = d :: ds → ((s.pc.get p).creditOut = [] ∨ (s.pc.get p).lastStream = .inbound) →
          c = { s.pc.get p with dataOut := ds, lastStream := .outbound }) ∧
        ((s.pc.get p).creditOut = [] → (s.pc.get p).dataOut = [] → c = s.pc.get p))

/-! ## Lines: ringing, voltage, extension, caller identity -/

namespace Sys2Proof.Claims

/-- A line record with its caller window closed by something other than a complete message (R21): octets that made no message leave an
INVALID record. -/
def windowShut (r : LineRec) : LineRec :=
  if r.window = .closed then r
  else { r with window := .closed, callerOctets := [], callerFault := false,
                caller := if r.callerOctets = [] then r.caller else some ⟨false, none, none, none, none, none⟩ }

/-- The flag such a closing shows. -/
def shutFlags (r : LineRec) : List ChangeFlag := if r.window = .closed ∨ r.callerOctets = [] then [] else [.caller]

/-- The Voice Message Controller without a bridge to a line (R110, R121). -/
def unbridged (l : LineId) (v : Vm) : Vm := if v.holder = .bridge l then { v with holder := .none, micOut := 0 } else v

/-- The store can take a voice message, and a fax (R10). -/
def canVoice (st : Store) : Prop := (∃ n : Fin 128, st.dir[n].state = .free) ∧ st.reserve + 1 < st.freeList.length
def canFax (st : Store) : Prop := (∃ n : Fin 128, st.dir[n].state = .free) ∧ ∃ k : Fin 256, st.pages[k].inUse = false

/-- The computer can take a data call (R10). -/
def canData (s : State) : Prop :=
  s.pc.cp.state = .ready ∧ s.st.cp.inb.state = .unbound ∧ s.st.cp.outb.state = .unbound ∧ s.cl.state = .ended

/-- The answer decision answers no call (Table 1-11). -/
def Declines (l : LineId) (s : State) : Prop :=
  match (s.lc.get l).policy.answerMode with
  | .off => True
  | .voice => ¬ canVoice s.store ∧
      ∀ n : Fin 128, ¬ (s.store.dir[n].state = .complete ∧ s.store.dir[n].kind = .announce ∧ s.store.dir[n].mailbox = some 0)
  | .fax => ¬ canFax s.store
  | .data => ¬ canData s
  | .auto => ¬ canVoice s.store ∧ ¬ canFax s.store

/-- A dial at rest with an outcome: what the end of a dial leaves of it (R45). -/
def endedDial (o : DialOutcome) (d : Dialler) : Dialler :=
  ⟨{ d.record with owner := none, phase := .idle, outcome := some o }, .none, false⟩

/-- The line has been put on hook and is clearing (R13, R14): its unit is in QUIET and the other line's record is as it was. -/
structure OnHook (l : LineId) (c : Controller) (s u : State) : Prop where
  line : u.lc.get l = { s.lc.get l with
    state := .clearing, controller := c, changes := (u.lc.get l).changes, hook := false, loopBreak := false,
    faultTimer := if s.pins.loop.get l then .stopped else .running, extRemembered := false }
  flags : ∀ p, (s.pc.get p).state = .ready → ((u.lc.get l).changes.get p).state = true
  unit : (u.su.get l).mode = .quiet
  other : ∀ k, k ≠ l → u.lc.get k = s.lc.get k

/-- An off-hook line has been cleared from outside the block that serves it, by a loop break or by its controller (R13): the dial ends
NO-CARRIER or CANCELLED (R52), and the session (R117, R130), the fax session (R167) or the link (R186) of the call ends. -/
structure CallCleared (l : LineId) (loopBreak : Bool) (c : Controller) (s u : State) : Prop where
  onHook : OnHook l c s u
  dial : (s.lc.get l).state = .dialling ∨ (s.lc.get l).state = .awaiting →
    u.dq.get l = endedDial (if loopBreak then .noCarrier else .cancelled) (s.dq.get l)
  voice : (s.lc.get l).state = .voice → (s.vm.session.get l).phase ≠ .none →
    u.vm.session.get l = .none (s.vm.session.get l).mailbox ∧ u.vm.signal.get l = .none
  fax : (s.lc.get l).state = .fax → (s.fx.get l).role ≠ .none → (u.fx.get l).role = .none ∧ (u.fc.get l).owner = .none ∧
    (u.fx.get l).outcome = some (if loopBreak then .noCarrier else .aborted)
  data : (s.lc.get l).state = .data → s.cl.state ≠ .ended → s.cl.line = some l → u.cl.state = .ended ∧ (u.fc.get l).owner = .none ∧
    u.cl.outcome = some (if loopBreak then .noCarrier else .aborted)

end Sys2Proof.Claims

/-- RING_BURST_START (R6, R8, R9, R21): in IDLE it begins a call, in RINGING it counts, the second closing the caller window; RING is shown. On a
line that is due, the closing takes the answer decision, which may leave the line RINGING with no second decision to come (the decisions that answer
are in `CallsAreAnsweredAndClassified`). Elsewhere the row does nothing. -/
def Obligations.RingBurstStartBeginsOrCounts : Prop :=
  ∀ (l : LineId) (s : State), Runs s →
    let r := s.lc.get l
    (r.state = .idle → ∃ u, Follows (.ringBurstStart l) s u ∧ LineOnly l s u ∧ UnitAsked l .quiet s u ∧
      Shows l ([.state] ++ (if r.caller = none then [] else [.caller]) ++ (if r.controller = .none then [.state] else []) ++ [.ring])
        s u ∧
      u.lc.get l = { r with
        state := .ringing, controller := if r.controller = .none then .automatic else r.controller, ringCount := 1,
        snapshot := if r.policy.tollSaver = true ∧ s.store.newCounts.sum = 0 then r.policy.ringCount + 2 else r.policy.ringCount,
        caller := none, window := if r.policy.callerId then .pending else .closed, changes := (u.lc.get l).changes, hook := false,
        loopBreak := false, ringGone := false, due := false, decided := false, callerOctets := [], callerFault := false }) ∧
    (r.state = .ringing → r.window = .closed → r.due = false → ∃ u, Follows (.ringBurstStart l) s u ∧ LineOnly l s u ∧
      UnitKept l s u ∧ Shows l [.ring] s u ∧
      u.lc.get l = { r with ringCount := min 255 (r.ringCount + 1), changes := (u.lc.get l).changes, ringGone := false }) ∧
    (r.state = .ringing → r.window ≠ .closed → r.due = false → ∃ u, Follows (.ringBurstStart l) s u ∧ LineOnly l s u ∧
      (r.window = .pending → UnitKept l s u) ∧ (r.window = .opened → UnitAsked l .quiet s u) ∧
      Shows l ([.ring] ++ shutFlags r) s u ∧
      u.lc.get l = { windowShut r with
        ringCount := min 255 (r.ringCount + 1), changes := (u.lc.get l).changes, ringGone := false }) ∧
    (r.state = .ringing → r.window ≠ .closed → r.controller = .automatic → r.due = true → Declines l s →
      ∃ u, Follows (.ringBurstStart l) s u ∧ LineOnly l s u ∧ (r.window = .pending → UnitKept l s u) ∧
        (r.window = .opened → UnitAsked l .quiet s u) ∧ Shows l ([.ring] ++ shutFlags r) s u ∧
        u.lc.get l = { windowShut r with
          ringCount := min 255 (r.ringCount + 1), changes := (u.lc.get l).changes, ringGone := false, due := false,
          decided := true }) ∧
    (r.state ≠ .idle → r.state ≠ .ringing → Follows (.ringBurstStart l) s s)

/-- RING_BURST_END (R6, R9, R21) records the last ring end in IDLE, EXTENSION and RINGING, and in RINGING opens a PENDING caller window,
the unit going to CALLER-RX; below the snapshot, under a port, or after its decision, the line does not fall due. At the snapshot under
AUTOMATIC it falls due: with the window open it waits, and with the window CLOSED the answer decision is taken, which may leave the line
RINGING (R10). RING_WAIT_EXPIRY frees the line for queued calls (R57).

RING_GONE (R7): with the window CLOSED the line returns to IDLE, the ring count and snapshot are 0, and AUTOMATIC returns to NONE.
With no caller known and note-all-rings off no note is asked for; else the store makes or declines one.
Where the spec leaves a choice it is the model's, of log 4. -/
def Obligations.RingingEndsAreFollowed : Prop :=
  (∀ (l : LineId) (t : Nat) (s : State), Runs s →
    let r := s.lc.get l
    (r.state = .idle ∨ r.state = .extension → Follows (.ringBurstEnd l t) s
      { s with lc := s.lc.set l { r with lastRingEnd := some t, ringWait := true } }) ∧
    (r.state = .ringing → r.ringCount < r.snapshot ∨ r.controller ≠ .automatic ∨ r.decided = true → r.due = false → ∃ u, Follows (.ringBurstEnd l t) s u ∧ LineOnly l s u ∧
      u.pc = s.pc ∧
      u.lc.get l = { r with lastRingEnd := some t, ringWait := true, ringGone := true,
                            window := if r.window = .pending then .opened else r.window } ∧
      (r.window = .pending → UnitAsked l .callerRx s u) ∧ (r.window ≠ .pending → UnitKept l s u)) ∧
    (r.state = .ringing → r.controller = .automatic → r.decided = false → r.snapshot ≤ r.ringCount →
      (r.window = .pending → ∃ u, Follows (.ringBurstEnd l t) s u ∧ LineOnly l s u ∧ UnitAsked l .callerRx s u ∧ u.pc = s.pc ∧
        u.lc.get l = { r with lastRingEnd := some t, ringWait := true, ringGone := true, window := .opened, due := true }) ∧
      (r.window = .opened → Follows (.ringBurstEnd l t) s
        { s with lc := s.lc.set l { r with lastRingEnd := some t, ringWait := true, ringGone := true, due := true } }) ∧
      (r.window = .closed → Declines l s → Follows (.ringBurstEnd l t) s
        { s with lc := s.lc.set l { r with
            lastRingEnd := some t, ringWait := true, ringGone := true, due := false, decided := true } })) ∧
    (r.state ≠ .idle → r.state ≠ .extension → r.state ≠ .ringing → Follows (.ringBurstEnd l t) s s) ∧
    Follows (.ringWaitExpiry l) s { s with lc := s.lc.set l { r with ringWait := false } }) ∧
  (∀ (l : LineId) (s : State), Runs s →
    let r := s.lc.get l
    r.state = .ringing → r.ringGone = true → r.window = .closed →
      ∃ u, Follows (.ringGone l) s (if r.caller ≠ none ∨ r.policy.noteAll = true then askCallNote l u else u) ∧
        LineOnly l s u ∧ UnitAsked l .quiet s u ∧
        Shows l ((if r.controller = .automatic then [.state] else []) ++ [.state]) s u ∧
        u.lc.get l = { r with
          state := .idle, controller := if r.controller = .automatic then .none else r.controller, ringCount := 0, snapshot := 0,
          changes := (u.lc.get l).changes, hook := false, loopBreak := false, ringGone := false, due := false, decided := false })

/-- LOOP_VOLTAGE_LOSS, FAULT_TIMER_EXPIRY and LOOP_VOLTAGE_RETURN (R4, R13): on hook the fault timer runs and 1000 ms of it put the
line in FAULT, ringing ended as when the caller gives up; off hook a loop break is timed while the relay is operated; at the return both
stop and a line in FAULT leaves it.

EXT_CHANGE (R5, R14, R19, R51): a change shows EXTENSION in every state; in IDLE and EXTENSION the line follows it, in RINGING off hook ends
the ringing, in DIALLING it ends the dial with LINE-IN-USE, in VOICE under AUTOMATIC it is an intercept where the policy yields, in
CLEARING it is remembered; a level that does not change is no change.
Where the spec leaves a choice it is the model's, of log 4. -/
def Obligations.VoltageAndExtensionAreFollowed : Prop :=
  (∀ (l : LineId) (s : State), Runs s →
    let r := s.lc.get l
    let lost := { s with pins := { s.pins with loop := s.pins.loop.set l false } }
    let back := { s with pins := { s.pins with loop := s.pins.loop.set l true } }
    let timed := if r.state.offHook then { r with loopBreak := r.hook }
      else { r with faultTimer := if r.faultTimer = .stopped then .running else r.faultTimer }
    (exec (.loopVoltageLoss l) s = .next (settle lost { lost with lc := s.lc.set l timed })) ∧
    (r.faultTimer = .running → r.state = .idle ∨ r.state = .extension → ∃ u, Follows (.faultTimerExpiry l) s u ∧ LineOnly l s u ∧
      UnitAsked l .quiet s u ∧ Shows l [.state, .fault] s u ∧
      u.lc.get l = { r with state := .fault, faultTimer := .reached, changes := (u.lc.get l).changes, hook := false,
                            loopBreak := false }) ∧
    (r.faultTimer = .running → r.state = .ringing →
      ∃ u, Follows (.faultTimerExpiry l) s (if (windowShut r).caller ≠ none ∨ r.policy.noteAll = true then askCallNote l u else u) ∧
        LineOnly l s u ∧ UnitAsked l .quiet s u ∧
        Shows l (shutFlags r ++ (if r.controller = .automatic then [.state] else []) ++ [.state, .fault]) s u ∧
        u.lc.get l = { windowShut r with
          state := .fault, faultTimer := .reached, controller := if r.controller = .automatic then .none else r.controller,
          ringCount := 0, snapshot := 0, changes := (u.lc.get l).changes, hook := false, loopBreak := false, ringGone := false,
          due := false, decided := false }) ∧
    (r.faultTimer = .running → r.state ≠ .idle → r.state ≠ .extension → r.state ≠ .ringing →
      Follows (.faultTimerExpiry l) s { s with lc := s.lc.set l { r with faultTimer := .reached } }) ∧
    (r.faultTimer ≠ .running → Follows (.faultTimerExpiry l) s s) ∧
    (r.state = .fault → ∃ u, exec (.loopVoltageReturn l) s = .next (settle back u) ∧ LineOnly l back u ∧ UnitAsked l .quiet s u ∧
      Shows l [.state, .fault] s u ∧
      u.lc.get l = { r with state := if s.pins.ext.get l then .extension else .idle, faultTimer := .stopped,
                            changes := (u.lc.get l).changes, hook := false, loopBreak := false }) ∧
    (r.state ≠ .fault → exec (.loopVoltageReturn l) s = .next (settle back
      { back with lc := s.lc.set l { r with faultTimer := .stopped, loopBreak := false } }))) ∧
  (∀ (l : LineId) (off : Bool) (s : State), Runs s →
    let r := s.lc.get l
    let t := { s with pins := { s.pins with ext := s.pins.ext.set l off } }
    (s.pins.ext.get l = off → exec (.extChange l off) s = .next s) ∧
    (s.pins.ext.get l ≠ off →
      ((r.state = .idle ∧ off = true) ∨ (r.state = .extension ∧ off = false) →
        ∃ u, exec (.extChange l off) s = .next (settle t u) ∧ LineOnly l t u ∧ UnitAsked l .quiet s u ∧
          Shows l [.extension, .state] s u ∧
          u.lc.get l = { r with state := if off then .extension else .idle, changes := (u.lc.get l).changes, hook := false,
                                loopBreak := false }) ∧
      (r.state = .ringing → off = true →
        ∃ u, exec (.extChange l off) s = .next (settle t u) ∧ LineOnly l t u ∧ UnitAsked l .quiet s u ∧
          Shows l ([.extension] ++ shutFlags r ++ (if r.controller = .automatic then [.state] else []) ++ [.state]) s u ∧
          u.lc.get l = { windowShut r with
            state := .extension, controller := if r.controller = .automatic then .none else r.controller, ringCount := 0,
            snapshot := 0, changes := (u.lc.get l).changes, hook := false, loopBreak := false, ringGone := false, due := false,
            decided := false }) ∧
      (r.state = .dialling → off = true → ∃ u, exec (.extChange l off) s = .next (settle t u) ∧ OnHook l r.controller t u ∧
        (∀ p, (s.pc.get p).state = .ready → ((u.lc.get l).changes.get p).extension = true) ∧
        u.dq.get l = endedDial .lineInUse (s.dq.get l)) ∧
      (r.state = .voice → off = true → r.controller = .automatic → r.policy.extYield = true →
        ∃ u, exec (.extChange l off) s = .next (settle t u) ∧ (u.lc.get l).state = .extension ∧ (u.lc.get l).controller = .none ∧
          (u.lc.get l).purpose = .none ∧ (u.lc.get l).entryRef = none ∧ (u.lc.get l).hook = false ∧ (u.su.get l).mode = .quiet ∧
          (u.vm.session.get l).phase = .none ∧
          (∀ p, (s.pc.get p).state = .ready →
            ((u.lc.get l).changes.get p).extension = true ∧ ((u.lc.get l).changes.get p).state = true) ∧
          ((s.vm.session.get l).phase = .recording → (s.vp.get (ctxOf l)).entry.isSome →
            (u.vm.report.get (ctxOf l)).stop = some .intercept) ∧
          ∀ k, k ≠ l → u.lc.get k = s.lc.get k) ∧
      (r.state = .clearing ∨ r.state = .fault ∨ r.state = .talk ∨ r.state = .fax ∨ r.state = .data ∨ r.state = .seized ∨
          r.state = .awaiting ∨ (r.state = .idle ∧ off = false) ∨ (r.state = .extension ∧ off = true) ∨
          ((r.state = .ringing ∨ r.state = .dialling) ∧ off = false) ∨
          (r.state = .voice ∧ (off = false ∨ r.controller ≠ .automatic ∨ r.policy.extYield = false)) →
        ∃ u, exec (.extChange l off) s = .next (settle t u) ∧ LineOnly l t u ∧ UnitKept l s u ∧ Shows l [.extension] s u ∧
          u.lc.get l = { r with changes := (u.lc.get l).changes,
                                extRemembered := if r.state = .clearing then true else r.extRemembered })))

/-- CLEARING_GUARD_END (R14): the purpose is NONE, the entry reference absent, AUTOMATIC returns to NONE, and the line enters FAULT,
EXTENSION or IDLE by the fault timer and the EXT input.

LOOP_BREAK (R13): 400 ms of it in an off-hook state put the line in CLEARING, on hook, and end the dial (R52), the session (R117, R130),
the fax session (R167) or the link (R186) of the call; in SEIZED and TALK the bridge is released besides; a line whose break is not
timed, or that is on hook, is left as it is.
Where the spec leaves a choice it is the model's, of log 4. -/
def Obligations.LoopBreakAndGuardClearTheLine : Prop :=
  (∀ (l : LineId) (s : State), Runs s →
    let r := s.lc.get l
    let st : LineState := if r.faultTimer = .reached then .fault else if s.pins.ext.get l then .extension else .idle
    (r.state = .clearing → ∃ u, Follows (.clearingGuardEnd l) s u ∧ LineOnly l s u ∧ UnitAsked l .quiet s u ∧
      Shows l ((if r.controller = .automatic then [.state] else []) ++ [.state] ++ (if st = .fault then [.fault] else [])) s u ∧
      u.lc.get l = { r with
        state := st, controller := if r.controller = .automatic then .none else r.controller, purpose := .none, entryRef := none,
        changes := (u.lc.get l).changes, extRemembered := false, hook := false, loopBreak := false }) ∧
    (r.state ≠ .clearing → Follows (.clearingGuardEnd l) s s)) ∧
  (∀ (l : LineId) (s : State), Runs s →
    let r := s.lc.get l
    (r.state = .seized ∨ r.state = .talk → r.loopBreak = true → r.entryRef = none →
      ∃ u, Follows (.loopBreak l) s u ∧
        LineOnly l { s with vm := unbridged l s.vm } u ∧ UnitAsked l .quiet s u ∧ Shows l [.state] s u ∧
        u.lc.get l = { r with state := .clearing, changes := (u.lc.get l).changes, hook := false, loopBreak := false,
                              faultTimer := if s.pins.loop.get l then .stopped else .running, extRemembered := false }) ∧
    (r.state.offHook = true → r.loopBreak = true →
      ∃ u, Follows (.loopBreak l) s u ∧ CallCleared l true r.controller s u) ∧
    (r.state.offHook = false ∨ r.loopBreak = false → Follows (.loopBreak l) s s))

namespace Sys2Proof.Claims

/-- The octets of a caller message: type, length, parameters and the check octet that makes the sum 0 modulo 256 (R22). -/
def callerMessage (type : Byte) (params : List Byte) : List Byte :=
  let body := type :: BitVec.ofNat 8 params.length :: params
  body ++ [0 - octetSum body]

/-- The octets of a sequence of parameters, each a code octet, a length octet and its value octets (R23). -/
def paramOctets (ps : List (Byte × List Byte)) : List Byte :=
  ps.foldr (fun x os => x.1 :: BitVec.ofNat 8 x.2.length :: (x.2 ++ os)) []

/-- The decimal digits a value spells: none where an octet is no digit character. -/
def decimals (v : List Byte) : Option (List (Fin 10)) :=
  v.mapM fun b => if 0x30 ≤ b.toNat ∧ b.toNat ≤ 0x39 then some (Fin.ofNat 10 (b.toNat - 0x30)) else none

/-- The conditions of Table 1-15 on a time, a number, a name (a printable character is one of ASCII 0x20 to 0x7E, log 16) and a withheld reason. -/
def timeParam (v : List Byte) : Option CallerTime :=
  match decimals v with
  | some [a, b, c, d, e, f, g, h] =>
    let month := 10 * a.val + b.val
    let day := 10 * c.val + d.val
    let hour := 10 * e.val + f.val
    let minute := 10 * g.val + h.val
    if (1 ≤ month ∧ month ≤ 12) ∧ (1 ≤ day ∧ day ≤ 31) ∧ hour ≤ 23 ∧ minute ≤ 59 then some ⟨month, day, hour, minute⟩ else none
  | _ => none
def numberParam (v : List Byte) : Option (List (Fin 10)) := if v = [] ∨ 20 < v.length then none else decimals v
def nameParam (v : List Byte) : Option (List Byte) :=
  if v ≠ [] ∧ v.length ≤ 15 ∧ ∀ b ∈ v, 0x20 ≤ b.toNat ∧ b.toNat ≤ 0x7E then some v else none
def withheldParam (v : List Byte) : Option Withheld := if v = [0x50] then some .onRequest else if v = [0x4F] then some .unavailable else none

/-- The field a sequence of parameters gives: the first parameter of its code whose value meets the condition (R23). -/
def fieldOf {α : Type} (code : Byte) (cond : List Byte → Option α) (ps : List (Byte × List Byte)) : Option α :=
  (ps.filterMap fun x => if x.1 = code then cond x.2 else none).head?

/-- The clock after a caller record, as the set-clock policy has it (R24, R89). -/
def clockAfter (c : SetClockMode) (r : CallerRecord) (t : Tod) : Tod :=
  match r.time with
  | none => t
  | some m =>
    if c = .always ∨ (c = .ifUnset ∧ t.isSet = false) then ⟨⟨m.month, min m.day (daysIn m.month), m.hour, m.minute, 0⟩, true⟩ else t

end Sys2Proof.Claims

/-- CALLER_OCTET and CALLER_WINDOW_TIMEOUT (R9, R21 to R24): an octet joins the message; the octet that completes a message makes the caller
record, RECEIVED or INVALID, shows CALLER and closes the window, the unit returning to QUIET, and a time in the record sets the clock as the
set-clock policy has it; so does the timeout, which makes an INVALID record of octets without a complete message and leaves the record alone where
none came. On a line that is due, the closing takes the answer decision, which may answer nothing (the decisions that answer are in
`CallsAreAnsweredAndClassified`).

A caller message is judged (R22, R23, Table 1-14, Table 1-15): its octets are complete at the check octet and no earlier; of the
policy's type and with a right check it is RECEIVED, each field given by the first parameter of its code that meets the table's condition; with
another type, a framing fault, a wrong check or a parameter running past the parameter octets it is INVALID and gives nothing.

The model's choices: a message whose length octet is 0 or above 80 never completes, and the type is compared at the check octet, with the policy as it
then is (log 65); a printable character is ASCII 0x20 to 0x7E (log 16); the timeout's row stands for the timer (log 4). -/
def Obligations.CallerOctetsMakeAJudgedRecord : Prop :=
  (∀ (l : LineId) (s : State), Runs s → (s.lc.get l).window = .opened →
    let r := s.lc.get l
    let done := fun (c : Option CallerRecord) (u : State) => { r with
      window := .closed, changes := (u.lc.get l).changes, callerOctets := [], callerFault := false, caller := c, due := false,
      decided := r.decided || r.due }
    ((s.su.get l).mode = .callerRx → ∀ (o : Byte) (fault : Bool), messageComplete (r.callerOctets ++ [o]) = false →
      Follows (.callerOctet l o fault) s
        { s with lc := s.lc.set l { r with callerOctets := r.callerOctets ++ [o], callerFault := r.callerFault || fault } }) ∧
    (r.due = false ∨ (r.state = .ringing ∧ r.controller = .automatic ∧ Declines l s) →
      ((s.su.get l).mode = .callerRx → ∀ (o : Byte) (fault : Bool), messageComplete (r.callerOctets ++ [o]) = true →
        let made := judgeMessage r.policy (r.callerFault || fault) (r.callerOctets ++ [o])
        ∃ u, Follows (.callerOctet l o fault) s u ∧ LineOnly l { s with tod := clockAfter r.policy.setClock made s.tod } u ∧
          UnitAsked l .quiet s u ∧ Shows l [.caller] s u ∧ u.lc.get l = done (some made) u) ∧
      ∃ u, Follows (.callerWindowTimeout l) s u ∧ LineOnly l s u ∧ UnitAsked l .quiet s u ∧
        Shows l (if r.callerOctets = [] then [] else [.caller]) s u ∧
        u.lc.get l = done (if r.callerOctets = [] then r.caller else some ⟨false, none, none, none, none, none⟩) u)) ∧
  (∀ (p : LinePolicy) (ps : List (Byte × List Byte)),
    let params := paramOctets ps
    let invalid : CallerRecord := ⟨false, none, none, none, none, none⟩
    let accepted := fun type : Byte => (type &&& p.typeMask) = (p.typeValue &&& p.typeMask)
    (1 ≤ params.length → params.length ≤ 80 →
      (∀ type : Byte, messageComplete (callerMessage type params) = true ∧
        ∀ k, k < (callerMessage type params).length → messageComplete ((callerMessage type params).take k) = false) ∧
      (∀ type : Byte, accepted type → judgeMessage p true (callerMessage type params) = invalid ∧
        judgeMessage p false (callerMessage type params) =
          ⟨true, fieldOf 0x10 timeParam ps, fieldOf 0x11 numberParam ps, fieldOf 0x12 nameParam ps, fieldOf 0x13 withheldParam ps,
            fieldOf 0x14 withheldParam ps⟩) ∧
      (∀ type : Byte, ¬ accepted type → judgeMessage p false (callerMessage type params) = invalid) ∧
      ∀ (type : Byte) (check : Byte), check ≠ (callerMessage type params).getLast! →
        judgeMessage p false ((callerMessage type params).dropLast ++ [check]) = invalid) ∧
    ∀ (type : Byte) (tail : List Byte), (∃ code, tail = [code]) ∨ (∃ code len v, tail = code :: len :: v ∧ v.length < len.toNat) →
      params.length + tail.length ≤ 80 → judgeMessage p false (callerMessage type (params ++ tail)) = invalid)

/-! ## Lines: a master's commands -/

/-- LINE STATUS (R3) answers the line's fields and the port's flags and changes nothing; ACK CHANGES (R2) removes the named flags of the
asking port alone. A line number other than 0 or 1 is BAD-ARGUMENT in every command of the chapter that names a line.
Where the spec leaves a choice it is the model's, of log 44. -/
def Obligations.LineStatusAndAckChanges : Prop :=
  (∀ (h : CmdHead) (l : LineId) (n : Nat) (s : State), lineOfNat n = some l → Takes h (.lineStatus n) s →
    let r := s.lc.get l
    OnlyAnswers (.lineStatus h n) h .ok (.line
      { state := r.state, controller := r.controller, ringCount := r.ringCount, snapshot := r.snapshot, purpose := r.purpose,
        entryRef := r.entryRef, caller := r.caller, ext := s.pins.ext.get l, loop := s.pins.loop.get l,
        changes := r.changes.get h.port, dial := (s.dq.get l).record,
        mailbox := (s.vm.session.get l).mailbox }) s) ∧
  (∀ (h : CmdHead) (l : LineId) (n : Nat) (fs : List ChangeFlag) (s : State), lineOfNat n = some l →
    Takes h (.ackChanges n fs) s → ∃ c : Changes,
      exec (.ackChanges h n fs) s = .next (answered h .ok .none
        (s.updLc l fun r => { r with changes := r.changes.set h.port c })) ∧
      (c.ring = ((((s.lc.get l).changes.get h.port).ring) && !fs.contains .ring)) ∧
      (c.state = ((((s.lc.get l).changes.get h.port).state) && !fs.contains .state)) ∧
      (c.caller = ((((s.lc.get l).changes.get h.port).caller) && !fs.contains .caller)) ∧
      (c.extension = ((((s.lc.get l).changes.get h.port).extension) && !fs.contains .extension)) ∧
      (c.fault = ((((s.lc.get l).changes.get h.port).fault) && !fs.contains .fault))) ∧
  (lineOfNat 0 = some .line0 ∧ lineOfNat 1 = some .line1) ∧
  ∀ (h : CmdHead) (n : Nat) (s : State), 2 ≤ n →
    (Takes h (.lineStatus n) s → OnlyAnswers (.lineStatus h n) h .badArgument .none s) ∧
    (∀ fs, Takes h (.ackChanges n fs) s → OnlyAnswers (.ackChanges h n fs) h .badArgument .none s) ∧
    (∀ a, Takes h (.setLinePolicy n a) s → Does (.setLinePolicy h n a) h .badArgument s s) ∧
    (Takes h (.takeLine n) s → Does (.takeLine h n) h .badArgument s s) ∧
    (Takes h (.releaseLine n) s → Does (.releaseLine h n) h .badArgument s s) ∧
    (∀ q, Takes h (.answer n q) s → Does (.answer h n q) h .badArgument s s) ∧
    (Takes h (.hookOff n) s → Does (.hookOff h n) h .badArgument s s) ∧
    (Takes h (.hookOn n) s → Does (.hookOn h n) h .badArgument s s) ∧
    (Takes h (.hangUp n) s → Does (.hangUp h n) h .badArgument s s)

/-- SET LINE POLICY (R25): the settings named change, each number clamped to its range, and the rest stay; the other port's line is
LINE-HELD, a value outside its list BAD-ARGUMENT, and neither changes anything. -/
def Obligations.SetLinePolicyChangesNamedSettings : Prop :=
  ∀ (h : CmdHead) (l : LineId) (n : Nat) (a : PolicyArgs) (s : State), lineOfNat n = some l →
    Takes h (.setLinePolicy n a) s →
    ((s.lc.get l).controller = .port (otherPort h.port) → Does (.setLinePolicy h n a) h .lineHeld s s) ∧
    ((s.lc.get l).controller ≠ .port (otherPort h.port) →
      (policyBad a = true → Does (.setLinePolicy h n a) h .badArgument s s) ∧
      (policyBad a = false → ∃ p : LinePolicy,
        Does (.setLinePolicy h n a) h .ok s { s with lc := s.lc.set l { s.lc.get l with policy := p } } ∧
        (p.answerMode = match a.answerMode with | .val v => v | _ => (s.lc.get l).policy.answerMode) ∧
        (p.ringCount = match a.ringCount with | some v => max 1 (min 9 v) | none => (s.lc.get l).policy.ringCount) ∧
        (p.tollSaver = match a.tollSaver with | .val v => v | _ => (s.lc.get l).policy.tollSaver) ∧
        (p.outgoing = match a.outgoing with | .val v => v | _ => (s.lc.get l).policy.outgoing) ∧
        (p.callerId = match a.callerId with | .val v => v | _ => (s.lc.get l).policy.callerId) ∧
        (p.typeValue.toNat = match a.typeValue with | some v => min 255 v | none => (s.lc.get l).policy.typeValue.toNat) ∧
        (p.typeMask.toNat = match a.typeMask with | some v => min 255 v | none => (s.lc.get l).policy.typeMask.toNat) ∧
        (p.setClock = match a.setClock with | .val v => v | _ => (s.lc.get l).policy.setClock) ∧
        (p.noteAll = match a.noteAll with | .val v => v | _ => (s.lc.get l).policy.noteAll) ∧
        (p.extYield = match a.extYield with | .val v => v | _ => (s.lc.get l).policy.extYield)))

/-- TAKE LINE (R15): in IDLE and RINGING the port becomes the controller and STATE is shown; a line held by the other port is LINE-HELD,
FAULT and EXTENSION are WRONG-STATE, and a line at work is BUSY; a call in VOICE is taken over, its session and the recording in progress
ending TAKEN, its unit going to QUIET (R16). RELEASE LINE (R18): off hook the line clears, whatever served it (R52, R117, R130, R167, R186),
and the controller is NONE; on hook it is AUTOMATIC in RINGING, else NONE.
Where the spec leaves a choice it is the model's, of log 17. -/
def Obligations.TakeAndReleaseLine : Prop :=
  ∀ (h : CmdHead) (l : LineId) (n : Nat) (s : State), lineOfNat n = some l →
    let r := s.lc.get l
    (Takes h (.takeLine n) s →
      (r.controller = .port (otherPort h.port) → Does (.takeLine h n) h .lineHeld s s) ∧
      (r.controller = .port h.port → Does (.takeLine h n) h .ok s s) ∧
      (r.controller = .none ∨ r.controller = .automatic →
        (r.state = .idle ∨ r.state = .ringing → ∃ u, Does (.takeLine h n) h .ok s u ∧ LineOnly l s u ∧ UnitKept l s u ∧
          Shows l [.state] s u ∧
          u.lc.get l = { r with controller := .port h.port, changes := (u.lc.get l).changes,
                                due := if r.state = .ringing then false else r.due }) ∧
        (r.state = .voice ∨ (r.state = .seized ∧ r.purpose = .voice) → (s.vm.session.get l).phase = .none → r.entryRef = none →
          ∃ u, Does (.takeLine h n) h .ok s u ∧ LineOnly l s u ∧ UnitAsked l .quiet s u ∧
            Shows l (if r.state = .voice then [.state] else [.state, .state]) s u ∧
            u.lc.get l =
              { (if r.state = .voice then r else { r with state := .voice, hook := true, faultTimer := .stopped }) with
                controller := .port h.port, changes := (u.lc.get l).changes }) ∧
        (r.state = .voice → ∃ u, Does (.takeLine h n) h .ok s u ∧ (u.lc.get l).state = .voice ∧
          (u.lc.get l).controller = .port h.port ∧ (u.lc.get l).entryRef = none ∧ (u.lc.get l).hook = r.hook ∧
          (u.su.get l).mode = .quiet ∧ (u.vm.session.get l).phase = .none ∧
          ((s.vm.session.get l).phase = .recording → (s.vp.get (ctxOf l)).entry.isSome →
            (u.vm.report.get (ctxOf l)).stop = some .taken) ∧
          ∀ k, k ≠ l → u.lc.get k = s.lc.get k) ∧
        (r.state = .fault ∨ r.state = .extension → Does (.takeLine h n) h .wrongState s s) ∧
        (r.state = .dialling ∨ r.state = .awaiting ∨ r.state = .fax ∨ r.state = .data ∨ r.state = .talk ∨ r.state = .clearing →
          Does (.takeLine h n) h .busy s s))) ∧
    (Takes h (.releaseLine n) s → r.controller = .port h.port → r.state.offHook = false →
      ∃ u, Does (.releaseLine h n) h .ok s u ∧ LineOnly l s u ∧ UnitKept l s u ∧ Shows l [.state] s u ∧
        u.lc.get l = { r with controller := if r.state = .ringing then .automatic else .none, changes := (u.lc.get l).changes }) ∧
    (Takes h (.releaseLine n) s → r.controller = .port h.port → r.state = .seized ∨ r.state = .talk → r.entryRef = none →
      ∃ u, Does (.releaseLine h n) h .ok s u ∧
        LineOnly l { s with vm := unbridged l s.vm } u ∧ UnitAsked l .quiet s u ∧ Shows l [.state, .state] s u ∧
        u.lc.get l = { r with state := .clearing, controller := .none, changes := (u.lc.get l).changes, hook := false,
                              loopBreak := false, faultTimer := if s.pins.loop.get l then .stopped else .running,
                              extRemembered := false }) ∧
    (Takes h (.releaseLine n) s → r.controller = .port h.port → r.state.offHook = true →
      ∃ u, Does (.releaseLine h n) h .ok s u ∧ CallCleared l false .none s u)

/-- A master's command on a line it does not control (R17): LINE-HELD where the other port does, WRONG-STATE otherwise, and nothing
changes.

HOOK OFF in IDLE seizes the line with purpose NONE; HOOK ON and HANG UP in an off-hook state put it in CLEARING, on hook, and end what
served it (R52, R117, R130, R167, R186); ANSWER with purpose VOICE in RINGING closes the caller window and answers the call, the line going to
VOICE under the port (R13, R17, R21).
Where the spec leaves a choice it is the model's, of log 17. -/
def Obligations.HookCommandsObeyTheController : Prop :=
  (∀ (h : CmdHead) (l : LineId) (n : Nat) (s : State), lineOfNat n = some l → (s.lc.get l).controller ≠ .port h.port →
    let code : Result := if (s.lc.get l).controller = .port (otherPort h.port) then .lineHeld else .wrongState
    (Takes h (.releaseLine n) s → Does (.releaseLine h n) h code s s) ∧
    (∀ q, Takes h (.answer n q) s → Does (.answer h n q) h code s s) ∧
    (Takes h (.hookOff n) s → Does (.hookOff h n) h code s s) ∧
    (Takes h (.hookOn n) s → Does (.hookOn h n) h code s s) ∧
    (Takes h (.hangUp n) s → Does (.hangUp h n) h code s s) ∧
    (∀ a, Takes h (.dial n a) s → Does (.dial h n a) h code s s) ∧
    (∀ on, Takes h (.connectLocal n on) s → Does (.connectLocal h n on) h code s s) ∧
    (Takes h (.faxReceive n) s → Does (.faxReceive h n) h code s s)) ∧
  (∀ (h : CmdHead) (l : LineId) (n : Nat) (s : State), lineOfNat n = some l →
    let r := s.lc.get l
    r.controller = .port h.port →
    (Takes h (.hookOff n) s →
      (r.state = .idle → ∃ u, Does (.hookOff h n) h .ok s u ∧ LineOnly l s u ∧ UnitKept l s u ∧ Shows l [.state] s u ∧
        u.lc.get l = { r with state := .seized, purpose := .none, changes := (u.lc.get l).changes, hook := true,
                              faultTimer := .stopped, loopBreak := !s.pins.loop.get l }) ∧
      (r.state ≠ .idle → Does (.hookOff h n) h .wrongState s s)) ∧
    (∀ i, (i = .hookOn h n ∧ Takes h (.hookOn n) s) ∨ (i = .hangUp h n ∧ Takes h (.hangUp n) s) →
      (r.state = .seized ∨ r.state = .talk → r.entryRef = none → ∃ u, Does i h .ok s u ∧
        LineOnly l { s with vm := unbridged l s.vm } u ∧ UnitAsked l .quiet s u ∧ Shows l [.state] s u ∧
        u.lc.get l = { r with state := .clearing, changes := (u.lc.get l).changes, hook := false, loopBreak := false,
                              faultTimer := if s.pins.loop.get l then .stopped else .running, extRemembered := false }) ∧
      (r.state.offHook = true → ∃ u, Does i h .ok s u ∧ CallCleared l false r.controller s u) ∧
      (r.state.offHook = false → Does i h .wrongState s s)) ∧
    (∀ q, Takes h (.answer n q) s →
      (q = some .voice → r.state = .ringing → ∃ u, Does (.answer h n q) h .accepted s u ∧ LineOnly l s u ∧
        (r.window = .opened → UnitAsked l .quiet s u) ∧ (r.window ≠ .opened → UnitKept l s u) ∧
        Shows l (shutFlags r ++ [.state, .state]) s u ∧
        u.lc.get l = { windowShut r with
          state := .voice, purpose := .voice, ringCount := 0, snapshot := 0, changes := (u.lc.get l).changes, hook := true,
          faultTimer := .stopped, loopBreak := !s.pins.loop.get l, ringGone := false, due := false, decided := false }) ∧
      (q = none ∨ q = some .none ∨ q = some .talk → Does (.answer h n q) h .badArgument s s) ∧
      (q = some .voice ∨ q = some .fax ∨ q = some .data → r.state ≠ .ringing → Does (.answer h n q) h .wrongState s s)))

/-! ## Signal Units -/

namespace Sys2Proof.Claims

/-- A counter of an on-off entry after a pair with an off period of `d` ms, whose on period began at `start` (R33): an off period outside
the entry's limits sets the count to 0; a pair spoiled before does not count; a pair that counts raises the class at the repeat count, the
count returning to 0. -/
def countedPair (d : Nat) (start : Moment) (e : CadenceEntry) (k : CadenceCounter) : CadenceCounter :=
  if d < e.offMin ∨ e.offMax < d then ⟨0, none, false, false⟩
  else if k.spoiled then ⟨k.count, k.runStart, false, false⟩
  else if e.repeatCount ≤ k.count + 1 then ⟨0, none, false, false⟩
  else ⟨k.count + 1, if k.count = 0 then some start else k.runStart, false, false⟩

/-- A line's Signal Unit, with its channel following it, is all that changes. -/
def withUnit (l : LineId) (u : SignalUnit) (s : State) : State :=
  { s with su := s.su.set l u, fc := s.fc.set l (Channel.follow u (s.fc.get l)) }

/-- The need of each rate index (Table 2-3). -/
def needs : List Nat := [8, 14, 20, 26, 34, 42]

/-- Index `i` is allowed by both ceilings and its need is met by the measure. -/
def meets (u : SignalUnit) (q : Fin 64) (i : Fin 6) : Prop :=
  i ≤ u.ownCeiling ∧ i ≤ u.peerCeiling ∧ needs[i.val]! ≤ q.val

end Sys2Proof.Claims

/-- TONE_ON, TONE_OFF, CONTINUOUS_CADENCE and CADENCE_RESET (R32 to R34) on a line whose cadence classes have no reader: the periods are
measured, each on-off entry counts the pairs within its limits, a continuous entry is reported once, and nothing but the unit's
timing and counters changes. A tone in a mode that hears none changes nothing.
Where the spec leaves a choice it is the model's, of logs 4 and 45. -/
def Obligations.CadencesAreCounted : Prop :=
  ∀ (l : LineId) (s : State), Runs s →
    let u := s.su.get l
    let d := s.dq.get l
    let hears := u.mode = .voice ∨ (u.mode = .tones ∧ u.generation = none)
    (∀ t : Nat, hears → u.onAt = none → d.record.phase = .idle → (s.lc.get l).state ≠ .voice →
      ∃ cs : Vector CadenceCounter 8, Follows (.toneOn l t) s
        { s with su := s.su.set l { u with detector := .steady, onAt := some ⟨t, u.sampleClock⟩, pairOn := none, offAt := none,
                                           offDuration := u.offAt.map fun a => t - a, counters := cs },
                 dq := s.dq.set l { d with silence := false } } ∧
        ∀ n : Fin 8, 0 < u.cadence[n].repeatCount → 0 < u.cadence[n].offMax → u.counters[n].count < u.cadence[n].repeatCount →
          (∀ m a, u.pairOn = some m → u.offAt = some a → cs[n] = countedPair (t - a) m u.cadence[n] u.counters[n]) ∧
          (u.pairOn = none ∨ u.offAt = none → cs[n] = { u.counters[n] with spoiled := false, reported := false })) ∧
    (∀ (t : Nat) (m : Moment), hears → u.onAt = some m → ∃ cs : Vector CadenceCounter 8, Follows (.toneOff l t) s
        { s with su := s.su.set l { u with detector := .none, onAt := none, pairOn := some m, offAt := some t,
                                           onDuration := some (t - m.ms), counters := cs },
                 dq := if d.record.phase = .awaiting then s.dq.set l { d with silence := true } else s.dq } ∧
        ∀ n : Fin 8, cs[n] =
          if 0 < u.cadence[n].repeatCount ∧ 0 < u.cadence[n].offMax ∧
            (u.cadence[n].onMax < t - m.ms ∨ t - m.ms < u.cadence[n].onMin)
          then ⟨0, none, true, u.counters[n].reported⟩ else u.counters[n]) ∧
    (¬ hears → (∀ t, Follows (.toneOn l t) s s) ∧ ∀ t, Follows (.toneOff l t) s s) ∧
    (∀ n : Fin 8, u.onAt.isSome → u.cadence[n].offMax = 0 → 0 < u.cadence[n].repeatCount → u.counters[n].reported = false →
      d.record.phase = .idle → (s.lc.get l).state ≠ .voice →
      ∃ cs : Vector CadenceCounter 8, Follows (.continuousCadence l n) s { s with su := s.su.set l { u with counters := cs } } ∧
        ∀ k : Fin 8, cs[k] = { u.counters[k] with
          reported := u.counters[k].reported ||
            (u.cadence[k].offMax == 0 && u.cadence[k].repeatCount != 0 && u.cadence[k].onMin == u.cadence[n].onMin) }) ∧
    (∀ n : Fin 8, u.counters[n].reported = true → Follows (.continuousCadence l n) s s) ∧
    ∀ n : Fin 8,
      (u.mode = .tones ∨ u.mode = .voice → 0 < u.cadence[n].repeatCount → 0 < u.cadence[n].offMax →
        Follows (.cadenceReset l n) s
          { s with su := s.su.set l { u with counters := u.counters.set n ⟨0, none, true, u.counters[n].reported⟩ } }) ∧
      (u.mode ≠ .tones → u.mode ≠ .voice → Follows (.cadenceReset l n) s s)

/-- SET CADENCE (R35): each named entry is replaced, its numbers clamped and its counter cleared; the other entries and counters stay; a
named keypad-tone time is clamped to 50..200; the reply gives the table and both times. One entry refused refuses the command. The model's choices:
the replacement is no reset of a pair in progress, so the cleared counter is not spoiled (log 53), and of one number named twice the last stands
(log 71). -/
def Obligations.SetCadenceReplacesNamedEntries : Prop :=
  ∀ (h : CmdHead) (l : LineId) (line : Nat) (a : CadenceArgs) (s : State), lineOfNat line = some l →
    Takes h (.setCadence line a) s →
    let old := s.su.get l
    let clamped := fun (x : CadenceArg) (c : CadenceClass) => (⟨c, clampNat 20 10000 x.onMin, clampNat 20 10000 x.onMax,
      clampNat 0 10000 x.offMin, clampNat 0 10000 x.offMax, clampNat 0 15 x.repeatCount⟩ : CadenceEntry)
    let good := fun (x : CadenceArg) => x.entry < 8 ∧ ∃ c, x.cls = some c ∧ (clamped x c).onMin ≤ (clamped x c).onMax ∧
      ((clamped x c).offMax = 0 ∨ (clamped x c).offMin ≤ (clamped x c).offMax)
    ((s.lc.get l).controller = .port (otherPort h.port) → OnlyAnswers (.setCadence h line a) h .lineHeld .none s) ∧
    ((s.lc.get l).controller ≠ .port (otherPort h.port) →
      ((∃ x ∈ a.entries, ¬ good x) → OnlyAnswers (.setCadence h line a) h .badArgument .none s) ∧
      ((∀ x ∈ a.entries, good x) → ∃ u : SignalUnit,
        exec (.setCadence h line a) s = .next
          (answered h .ok (.cadence u.cadence.toList u.toneOnTime u.toneGapTime) { s with su := s.su.set l u }) ∧
        u = { old with cadence := u.cadence, counters := u.counters, toneOnTime := u.toneOnTime, toneGapTime := u.toneGapTime } ∧
        (u.toneOnTime = match a.onTime with | some v => clampNat 50 200 v | none => old.toneOnTime) ∧
        (u.toneGapTime = match a.gapTime with | some v => clampNat 50 200 v | none => old.toneGapTime) ∧
        (∀ (n : Fin 8) (x : CadenceArg), a.entries.reverse.find? (fun y => y.entry == n.val) = some x →
          (∀ c, x.cls = some c → u.cadence[n] = clamped x c) ∧ u.counters[n] = ⟨0, none, false, false⟩) ∧
        ∀ n : Fin 8, n.val ∉ a.entries.map (fun x => x.entry) → u.cadence[n] = old.cadence[n] ∧ u.counters[n] = old.counters[n]))

/-- The other detectors and generation (R36, R37). KEYPAD_DIGIT is heard in VOICE, ANSWER_TONE and SPEECH in TONES, DATA_CALLING_TONE in
both, each once until it is no longer heard; where no block reads them they set the detector output alone. GENERATION_DONE ends the tone,
reports it COMPLETE, and tells the block that asked.
Where the spec leaves a choice it is the model's, of log 5. -/
def Obligations.DetectorsReportOnce : Prop :=
  ∀ (l : LineId) (s : State), Runs s →
    let u := s.su.get l
    let voice := (s.lc.get l).state = .voice
    let alone := fun v => ({ s with su := s.su.set l v } : State)
    (∀ k, u.mode = .voice → u.heardKeypad = false → ¬ voice →
      Follows (.keypadDigit l k) s (alone { u with detector := .keypad, heardKeypad := true })) ∧
    (∀ k, u.mode ≠ .voice ∨ u.heardKeypad = true → Follows (.keypadDigit l k) s s) ∧
    (u.mode = .tones → u.heardAnswer = false → (s.dq.get l).record.phase ≠ .awaiting →
      Follows (.answerTone l) s (alone { u with detector := .answer, heardAnswer := true })) ∧
    (u.mode ≠ .tones ∨ u.heardAnswer = true → Follows (.answerTone l) s s) ∧
    (u.mode = .tones ∨ u.mode = .voice → u.heardData = false → ¬ voice →
      Follows (.dataCallingTone l) s (alone { u with detector := .dataCalling, heardData := true })) ∧
    ((u.mode ≠ .tones ∧ u.mode ≠ .voice) ∨ u.heardData = true → Follows (.dataCallingTone l) s s) ∧
    (u.mode = .tones → u.heardSpeech = false → (s.dq.get l).record.phase ≠ .awaiting →
      Follows (.speech l) s (alone { u with detector := .speech, heardSpeech := true })) ∧
    (u.mode ≠ .tones ∨ u.heardSpeech = true → Follows (.speech l) s s) ∧
    (∀ w, ∃ v, Follows (.toneNoLongerHeard l w) s (alone v) ∧
      v = { u with detector := v.detector, heardKeypad := (u.heardKeypad && w != .keypad), heardAnswer := (u.heardAnswer && w != .answer),
                   heardData := (u.heardData && w != .dataCalling), heardSpeech := (u.heardSpeech && w != .speech) } ∧
      v.detector =
        if u.detector = (match w with | .keypad => .keypad | .answer => .answer | .dataCalling => .dataCalling | .speech => .speech)
        then .none else u.detector) ∧
    (u.generation = none → Follows (.generationDone l) s s) ∧
    let done := fun (t : Tone) => withUnit l { u with generation := none, lastTone := some ⟨t, .complete⟩ } s
    let signal := fun g => ({ done .beep with vm := { s.vm with signal := s.vm.signal.set l g } } : State)
    (∀ d g n, u.generation = some ⟨.beep, d, g, n⟩ →
      (s.vm.signal.get l = .none → Follows (.generationDone l) s (done .beep)) ∧
      (s.vm.signal.get l = .accept false ∨ s.vm.signal.get l = .refuseSecond false → Follows (.generationDone l) s (signal .none)) ∧
      (∀ b, s.vm.signal.get l = .refuseFirst b → Follows (.generationDone l) s (signal (.refuseGap b)))) ∧
    (∀ k d g n, u.generation = some ⟨.keypad k, d, g, n⟩ → (s.dq.get l).step ≠ .tone →
      Follows (.generationDone l) s (done (.keypad k))) ∧
    ∀ d g n, u.generation = some ⟨.answerTone, d, g, n⟩ → (s.fw.get l).step ≠ .answerTone →
      Follows (.generationDone l) s (done .answerTone)

namespace Sys2Proof.Claims

/-- No block uses the bits of a line's unit: no fax session, and not the link. -/
def unserved (l : LineId) (s : State) : Prop := (s.fx.get l).role = .none ∧ (s.cl.state = .ended ∨ s.cl.line ≠ some l)

/-- The link is on a line, and no fax session. -/
def linked (l : LineId) (s : State) : Prop := (s.fx.get l).role = .none ∧ s.cl.state ≠ .ended ∧ s.cl.line = some l

/-- A unit at the end of a training or retrain: back in its mode, with no carrier-loss timer (R38, R41). -/
def trainingOver (u : SignalUnit) : SignalUnit :=
  { u with mode := if u.mode = .retrain then u.returnMode.getD .retrain else u.mode, returnMode := none, training := false,
           lossTimer := false }

/-- The training has succeeded at an index with a measure (R38, R40): the carrier is PRESENT, and in DATA the watch is on. -/
def trainedAt (q : Fin 64) (i : Fin 6) (u : SignalUnit) : SignalUnit :=
  { trainingOver u with quality := q, rate := i, carrier := true, watch := u.watch || (trainingOver u).mode == .data }

/-- The training has failed with a measure (R38): the index is left, the carrier ABSENT. -/
def trainingLost (q : Fin 64) (u : SignalUnit) : SignalUnit := { trainingOver u with quality := q, carrier := false }

/-- `s` with what a fax session is doing replaced. -/
def withWork (l : LineId) (w : FaxWork) (s : State) : State := { s with fw := s.fw.set l w }

/-- The unit has begun a retrain and the link follows it (R41, R184): from OPEN, HELD-BY-PEER and SETUP it is RETRAINING, its reply timer
suspended. -/
structure LinkRetrained (l : LineId) (u : SignalUnit) (s t : State) : Prop where
  unit : t.su.get l = { u with returnMode := some u.mode, mode := .retrain, training := true, lossTimer := false }
  link : t.cl = if s.cl.state = .opened ∨ s.cl.state = .heldByPeer ∨ s.cl.state = .setup then
    { s.cl with state := .retraining, returnState := some s.cl.state,
                timer := if s.cl.timer = .running then .suspended else s.cl.timer } else s.cl
  frame : t = { s with su := t.su, fc := t.fc, cl := t.cl, pc := t.pc }
  other : ∀ k, k ≠ l → t.su.get k = s.su.get k ∧ t.fc.get k = s.fc.get k

end Sys2Proof.Claims

/-- Trainings (R38, R39, R41, Table 2-3, R151, R152, R154, R160, R162, R163, R174, R184). TRAINING_COMPLETE ends a training at the
highest index within both ceilings whose need the measure meets; where none is met, and at TRAINING_TIMEOUT, it fails with the carrier
ABSENT and the index kept. The fax session on the line goes on to its check, page or round, or at another index than the chosen one, or a
failure, gives it up; the link sends CALL-UP, waits for it, or is back from RETRAINING, and ends NO-CARRIER at a failure.

Carrier, quality and retrains (R39 to R42): a loss starts the carrier-loss timer while the watch is on, a return before it ends retrains,
the timer's end ends the call NO-CARRIER, and a retrain comes back to its mode; a disturbance spoils the line being received.
Where the spec leaves a choice it is the model's, of logs 4, 5, 66 and 67. -/
def Obligations.TrainingsFindTheRate : Prop :=
  ∀ (l : LineId) (s : State), Runs s →
    let u := s.su.get l
    let x := s.fx.get l
    let w := s.fw.get l
    (u.training = true →
      (∀ (q : Fin 64) (i : Fin 6), meets u q i → (∀ j, meets u q j → j ≤ i) →
        let ev : Instr := .trainingComplete l q
        let at' := withUnit l (trainedAt q i u) s
        let armed := withUnit l { trainedAt q i u with watch := true } s
        (unserved l s → Follows ev s at') ∧
        (∀ c : Choice, x.choice = some c →
          (x.role = .receiver →
            (w.step = .checkTraining → c.rate = i → Follows ev s (withWork l { w with step := .checkBits 0 0 } at')) ∧
            (w.step = .checkTraining → c.rate ≠ i → ∃ t, Follows ev s t ∧ ControlAsked l .checkFail .wait s t ∧
              (t.fx.get l).state = some .rVerdict ∧ (t.su.get l).mode = .faxSlow) ∧
            (w.step = .pageTraining → Follows ev s (withWork l { w with step := .pageData, trained := true } armed)) ∧
            (w.step = .blockTraining → w.blockOpen = true → Follows ev s (withWork l { w with step := .blockData } armed)) ∧
            (w.step = .blockTraining → w.blockOpen = false → w.pageEntry = none ∨ x.document.isSome → ∃ t, Follows ev s t ∧
              t.su.get l = { trainedAt q i u with watch := true } ∧ (t.fw.get l).step = .blockData ∧
              ((t.fw.get l).blockOpen = true ∨ (t.fw.get l).storeFull = true))) ∧
          (x.role = .sender →
            (w.step = .checkTraining → c.rate = i → Follows ev s (withWork l { w with step := .checkZeros } at')) ∧
            (w.step = .checkTraining → c.rate ≠ i → ∃ t, Follows ev s t ∧ (t.fx.get l).state = some .sCheck ∧
              (t.fx.get l).timer = true ∧ (t.fw.get l).step = .slow ∧ (t.su.get l).mode = .faxSlow) ∧
            (w.step = .pageTraining → c.rate = i → Follows ev s (withWork l { w with step := .pageData } at')) ∧
            (w.step = .pageTraining → c.rate ≠ i → ∃ t, Follows ev s t ∧ (t.fx.get l).state = some .sChoose ∧
              ControlAsked l (.choose c w.settings.station) .check s t ∧ (t.su.get l).mode = .faxSlow) ∧
            (w.step = .blockTraining → c.rate = i → Follows ev s (withWork l { w with step := .blockData } at')) ∧
            (w.step = .blockTraining → c.rate ≠ i → ∃ n t, Follows ev s t ∧ ControlAsked l (.blockEnd x.block n) .wait s t ∧
              (t.su.get l).mode = .faxSlow)) ∧
          (x.role ≠ .none → w.step = .pageData ∨ w.step = .blockData ∨ w.step = .checkZeros ∨ w.step = .slow ∨
            (∃ b e, w.step = .checkBits b e) → Follows ev s at')) ∧
        (linked l s →
          (s.cl.state = .setup → (s.fc.get l).rxState = .off → (s.fc.get l).txState = .off → (s.fc.get l).txQueue = [] →
            s.cw.control = [] → s.cw.again = [] → s.cw.fresh = [] → (trainedAt q i u).mode = .data → ∃ t, Follows ev s t ∧
              t.su.get l = trainedAt q i u ∧ t.cl = { s.cl with rate := i, quality := q } ∧ (t.fc.get l).rxState = .hunt ∧
              (t.fc.get l).txMode = .framed ∧ (t.fc.get l).rxMode = .framed ∧
              (s.cl.role = .caller → t.cw.setup = .interval ∧ t.cw.callUps = s.cw.callUps + 1 ∧
                ∃ n p, t.cw.proposed = some (n, p) ∧ (s.cw.proposed = none → (n, p) = (s.clSet.window, s.clSet.payload)) ∧
                  (t.fc.get l).txQueue = [⟨0x03, .octets (LinkFrame.callUp n p s.cw.ownCeiling).octets, .linkControl⟩]) ∧
              (s.cl.role = .answerer → t.cw.setup = .wait ∧ (t.fc.get l).txQueue = [])) ∧
          (s.cl.state = .retraining → s.cl.returnState ≠ some .retraining → ∃ t, Follows ev s t ∧ t.cl.state = s.cl.returnState.getD .opened ∧ t.cl.returnState = none ∧
            t.cl.rate = i ∧ t.cl.quality = q ∧ t.cl.history = [] ∧ t.cl.goodRun = 0 ∧ t.su.get l = trainedAt q i u ∧
            (∀ d ∈ s.cl.outstanding, frameQueued d.n t = true) ∧
            (s.cl.outstanding ≠ [] → t.cl.timer = .running)) ∧
          (s.cl.state = .plain → Follows ev s { at' with cl := { s.cl with rate := i, quality := q } }))) ∧
      (∀ (ev : Instr) (q : Fin 64),
        (ev = .trainingComplete l q ∧ ∀ i, ¬ meets u q i) ∨ (ev = .trainingTimeout l ∧ q = u.quality) →
        let gone := withUnit l (trainingLost q u) s
        (unserved l s → Follows ev s gone) ∧
        (x.role = .receiver →
          (w.step = .checkTraining ∨ (∃ b e, w.step = .checkBits b e) → ∃ t, Follows ev s t ∧
            ControlAsked l .checkFail .wait s t ∧ (t.fx.get l).state = some .rVerdict ∧ (t.su.get l).mode = .faxSlow) ∧
          (w.step = .pageTraining ∨ w.step = .pageData → ∃ t, Follows ev s t ∧ (t.fx.get l).state = some .rVerdict ∧
            (t.fx.get l).timer = true ∧ (t.fw.get l).step = .slow ∧ (t.su.get l).mode = .faxSlow) ∧
          (w.step = .blockTraining ∨ w.step = .blockData → ∃ t, Follows ev s t ∧ (t.fx.get l).state = x.state ∧
            (t.fx.get l).timer = true ∧ (t.fw.get l).step = .slow ∧ (t.su.get l).mode = .faxSlow)) ∧
        (x.role = .sender →
          (w.step = .checkTraining ∨ w.step = .checkZeros → ∃ t, Follows ev s t ∧ (t.fx.get l).state = some .sCheck ∧
            (t.fx.get l).timer = true ∧ (t.fw.get l).step = .slow ∧ (t.su.get l).mode = .faxSlow) ∧
          (∀ c, x.choice = some c → w.step = .pageTraining ∨ w.step = .pageData → ∃ t, Follows ev s t ∧
            (t.fx.get l).state = some .sChoose ∧ ControlAsked l (.choose c w.settings.station) .check s t) ∧
          (w.step = .blockTraining ∨ w.step = .blockData → ∃ n t, Follows ev s t ∧
            ControlAsked l (.blockEnd x.block n) .wait s t)) ∧
        (linked l s → (s.lc.get l).state = .data → (s.lc.get l).entryRef = none → ∃ t, Follows ev s t ∧ LinkEnds l .noCarrier s t))) ∧
    (u.training = false → (∀ q, Follows (.trainingComplete l q) s s) ∧ Follows (.trainingTimeout l) s s) ∧
    (∀ q, u.mode = .data ∨ u.mode = .faxFast → u.training = false → u.carrier = true →
      let measured := { s with su := s.su.set l { u with quality := q } }
      (s.cl.state = .ended ∨ s.cl.line ≠ some l → Follows (.qualityReport l q) s measured) ∧
      (linked l s → Follows (.qualityReport l q) s { measured with cl := { s.cl with quality := q } })) ∧
    (∀ q, u.carrier = false ∨ u.training = true → Follows (.qualityReport l q) s s) ∧
    (u.mode = .data ∨ u.mode = .faxFast ∨ u.mode = .faxSlow → u.training = false →
      (u.carrier = true →
        let lost := withUnit l { u with carrier := false, lossTimer := u.watch } s
        (unserved l s ∨ x.role = .sender → Follows (.carrierLost l) s lost) ∧
        (x.role = .receiver → w.step = .pageData → Follows (.carrierLost l) s (withWork l { w with lineSpoiled := true } lost)) ∧
        (x.role = .receiver → (∃ b e, w.step = .checkBits b e) → ∃ t, Follows (.carrierLost l) s t ∧
          ControlAsked l .checkFail .wait s t ∧ (t.fx.get l).state = some .rVerdict) ∧
        (x.role = .receiver → w.step = .slow ∨ w.step = .blockData → Follows (.carrierLost l) s lost) ∧
        (linked l s → Follows (.carrierLost l) s { lost with cl := { s.cl with
          timer := if s.cl.timer = .running then .suspended else s.cl.timer,
          proposal := s.cl.proposal.map fun p => (p.1, if p.2 = .running then .suspended else p.2) } })) ∧
      (u.carrier = false →
        let v := { u with carrier := true, lossTimer := false }
        (u.lossTimer = false ∨ u.mode = .faxSlow → Follows (.carrierBack l) s (withUnit l v s)) ∧
        (u.lossTimer = true → u.mode ≠ .faxSlow →
          (s.cl.state = .ended ∨ s.cl.line ≠ some l → Follows (.carrierBack l) s
            (withUnit l { v with returnMode := some u.mode, mode := .retrain, training := true } (withUnit l v s))) ∧
          (linked l s → ∃ t, Follows (.carrierBack l) s t ∧ LinkRetrained l v s t)))) ∧
    (u.lossTimer = true →
      (unserved l s → Follows (.carrierGone l) s { s with su := s.su.set l { u with lossTimer := false } }) ∧
      (x.role ≠ .none → (s.lc.get l).state = .fax → ∃ t, Follows (.carrierGone l) s t ∧ FaxEnds l .noCarrier s t) ∧
      (linked l s → (s.lc.get l).state = .data → (s.lc.get l).entryRef = none →
        ∃ t, Follows (.carrierGone l) s t ∧ LinkEnds l .noCarrier s t)) ∧
    (u.lossTimer = false → Follows (.carrierGone l) s s) ∧
    (u.mode = .data ∨ u.mode = .faxFast → u.training = false →
      (s.cl.state = .ended ∨ s.cl.line ≠ some l → Follows (.retrainRequested l) s
        (withUnit l { u with returnMode := some u.mode, mode := .retrain, training := true, lossTimer := false } s)) ∧
      (linked l s → ∃ t, Follows (.retrainRequested l) s t ∧ LinkRetrained l u s t)) ∧
    (u.training = true → Follows (.retrainRequested l) s s) ∧
    (u.mode = .data ∨ u.mode = .faxFast → u.training = false → u.carrier = true → x.role = .receiver → w.step = .pageData →
      Follows (.disturbance l) s (withWork l { w with lineSpoiled := true } s)) ∧
    (x.role ≠ .receiver ∨ w.step ≠ .pageData ∨ u.carrier = false → Follows (.disturbance l) s s)
/-! ## Dialling and the call queue -/

namespace Sys2Proof.Claims

/-- `s` with line `l`'s dialler replaced. -/
def withDial (l : LineId) (d : Dialler) (s : State) : State := { s with dq := s.dq.set l d }

/-- The dialler with its position at the next symbol (R47). -/
def moved (d : Dialler) : Dialler := { d with record := { d.record with position := d.record.position + 1 } }

/-- The line's hook relay as the dialler sets it: the loop break is timed while it is operated without voltage (R50). -/
def withRelay (l : LineId) (on : Bool) (s : State) : State :=
  { s with lc := s.lc.set l { s.lc.get l with hook := on, loopBreak := on && !s.pins.loop.get l } }

/-- A keypad tone of the unit's tone and gap times is begun in TONES, a tone in progress ending CUT; the tone detector is held, so that an
on period is abandoned (R32, R37, log 45). -/
def withKey (l : LineId) (k : Key) (s : State) : State :=
  let u := s.su.get l
  withUnit l { u with generation := some ⟨.keypad k, u.toneOnTime, u.toneGapTime, u.sampleClock⟩, lastTone := u.cutTone,
                      detector := .none, onAt := none } s

/-- The unit's tone is done, with result COMPLETE (R37). -/
def withoutTone (l : LineId) (g : Tone) (s : State) : State :=
  withUnit l { s.su.get l with generation := none, lastTone := some ⟨g, .complete⟩ } s

/-- The pair that a tone-on at `t` ends is within entry `n`'s limits, and the last its repeat count asks for (R33). -/
def CountsUp (u : SignalUnit) (t : Nat) (n : Fin 8) : Prop :=
  ∃ m a, u.pairOn = some m ∧ u.offAt = some a ∧ u.counters[n].spoiled = false ∧ 0 < u.cadence[n].repeatCount ∧
    0 < u.cadence[n].offMax ∧ u.cadence[n].offMin ≤ t - a ∧ t - a ≤ u.cadence[n].offMax ∧
    u.cadence[n].repeatCount ≤ u.counters[n].count + 1

/-- The event raises a cadence class, of the lowest entry where several come together (R33, R34): a tone-on that completes a run of pairs, or
the on period that reaches a continuous entry's minimum. -/
def Raises (l : LineId) (u : SignalUnit) (c : CadenceClass) (i : Instr) : Prop :=
  (∃ t n, i = .toneOn l t ∧ u.mode = .tones ∧ u.generation = none ∧ u.onAt = none ∧ u.cadence[n].cls = c ∧ CountsUp u t n ∧
    ∀ k < n, ¬ CountsUp u t k ∧ (0 < u.cadence[k].repeatCount → u.counters[k].count < u.cadence[k].repeatCount)) ∨
  (∃ n, i = .continuousCadence l n ∧ u.onAt.isSome ∧ u.cadence[n].cls = c ∧ u.cadence[n].offMax = 0 ∧
    0 < u.cadence[n].repeatCount ∧ u.counters[n].reported = false ∧ ∀ k < n, u.cadence[k].onMin ≠ u.cadence[n].onMin)

/-- `Begins l s u`: from `s`, the symbol at the dial's position is begun, which leads to `u` (R47 to R50). A symbol that takes no time is
passed by. -/
inductive Begins (l : LineId) : State → State → Prop where
  | comma (s : State) : (s.dq.get l).record.string[(s.dq.get l).record.position]? = some .comma →
      Begins l s (withDial l { s.dq.get l with step := .pause } s)
  | wait (s : State) : (s.dq.get l).record.string[(s.dq.get l).record.position]? = some .wait →
      (s.dq.get l).record.toneSeen = false → Begins l s (withDial l { s.dq.get l with step := .dialTone false } s)
  | flash (s : State) : (s.dq.get l).record.string[(s.dq.get l).record.position]? = some .flash →
      Begins l s (withRelay l false
        (withDial l { s.dq.get l with step := .flash, record := { (s.dq.get l).record with toneSeen := false } } s))
  | pulse (s : State) (n : Fin 10) : (s.dq.get l).record.string[(s.dq.get l).record.position]? = some (.key (.digit n)) →
      (s.dq.get l).record.pulse = true →
      Begins l s (withRelay l false
        (withDial l { s.dq.get l with step := .pulseBreak (if n = 0 then 10 else n.val),
                                      record := { (s.dq.get l).record with toneSeen := false } } s))
  | tone (s : State) (k : Key) : (s.dq.get l).record.string[(s.dq.get l).record.position]? = some (.key k) →
      (s.dq.get l).record.pulse = false ∨ (∀ n, k ≠ .digit n) →
      Begins l s (withKey l k
        (withDial l { s.dq.get l with step := .tone, record := { (s.dq.get l).record with toneSeen := false } } s))
  | passWait (s u : State) : (s.dq.get l).record.string[(s.dq.get l).record.position]? = some .wait →
      (s.dq.get l).record.toneSeen = true → Begins l (withDial l (moved (s.dq.get l)) s) u → Begins l s u
  | passTone (s u : State) : (s.dq.get l).record.string[(s.dq.get l).record.position]? = some .toneMode →
      Begins l (withDial l { moved (s.dq.get l) with record := { (moved (s.dq.get l)).record with pulse := false } } s) u →
      Begins l s u
  | passPulse (s u : State) : (s.dq.get l).record.string[(s.dq.get l).record.position]? = some .pulseMode →
      Begins l (withDial l { moved (s.dq.get l) with record := { (moved (s.dq.get l)).record with pulse := true } } s) u →
      Begins l s u
  | done (s u : State) : (s.dq.get l).record.string.length ≤ (s.dq.get l).record.position →
      LineOnly l (withDial l ⟨{ (s.dq.get l).record with phase := .awaiting }, .none, false⟩ s) u → UnitKept l s u →
      Shows l [.state] s u →
      u.lc.get l = { s.lc.get l with state := .awaiting, hook := true, faultTimer := .stopped, changes := (u.lc.get l).changes } →
      Begins l s u

/-- The line goes on hook into CLEARING and its dial ends with an outcome (R13, R45, R53). -/
structure DialFails (l : LineId) (o : DialOutcome) (s u : State) : Prop where
  frame : LineOnly l { s with dq := s.dq.set l (endedDial o (s.dq.get l)),
                              vm := unbridged l s.vm } u
  unit : UnitAsked l .quiet s u
  shows : Shows l [.state] s u
  line : u.lc.get l = { s.lc.get l with
    state := .clearing, changes := (u.lc.get l).changes, hook := false, loopBreak := false,
    faultTimer := if s.pins.loop.get l then .stopped else .running, extRemembered := false }

/-- A queued call in a finished state (R55). -/
def callOver (e : QueueEntry) : Prop := e.state = .done ∨ e.state = .failed ∨ e.state = .cancelled

/-- The slot of a queued call, its notice raised to both ports (R55). -/
structure EntrySet (n : Fin 8) (e : QueueEntry) (s u : State) : Prop where
  frame : u = { s with queue := s.queue.set n e, pc := u.pc }
  notices : Notices [⟨.call, .entry n, [.changed]⟩] s u

end Sys2Proof.Claims

/-- DIAL_PAUSE_END, PULSE_BREAK_END, PULSE_MAKE_END, DIGIT_PAUSE_END, FLASH_END and the end of a keypad tone (R47 to R50): the symbols of
the string are sent in order, a digit in pulse mode as its breaks and makes with a pause before the next symbol, and after the last the line
is AWAITING. A DIAL class ends a W, explicit or implicit (R48). An event whose timer does not run changes nothing.
Where the spec leaves a choice it is the model's, of logs 4 and 45. -/
def Obligations.SymbolsAreSentInOrder : Prop :=
  ∀ (l : LineId) (s : State), Runs s → (s.lc.get l).state = .dialling → (s.su.get l).mode = .tones →
    (s.dq.get l).record.string.length ≤ 40 →
    let d := s.dq.get l
    let next := withDial l (moved d) s
    (d.step = .pause → ∃ u, Begins l next u ∧ Follows (.dialPauseEnd l) s u) ∧
    (d.step = .flash → ∃ u, Begins l (withRelay l true next) u ∧ Follows (.flashEnd l) s u) ∧
    (d.step = .digitPause → ∃ u, Begins l s u ∧ Follows (.digitPauseEnd l) s u) ∧
    (∀ k t g n, d.step = .tone → (s.su.get l).generation = some ⟨.keypad k, t, g, n⟩ →
      ∃ u, Begins l (withoutTone l (.keypad k) next) u ∧ Follows (.generationDone l) s u) ∧
    (∀ (b : Bool) (i : Instr), d.step = .dialTone b → d.record.phase = .dialling → d.silence = false →
      Raises l (s.su.get l) .dial i → ∃ v u,
        v = { s.su.get l with detector := v.detector, onAt := v.onAt, pairOn := v.pairOn, offAt := v.offAt,
                              offDuration := v.offDuration, counters := v.counters } ∧
        Follows i s u ∧
        let seen : Dialler := { d with record := { d.record with toneSeen := true } }
        Begins l (withDial l (if b then seen else moved seen) { s with su := s.su.set l v }) u) ∧
    (∀ k, d.step = .pulseBreak k → Follows (.pulseBreakEnd l) s (withRelay l true (withDial l { d with step := .pulseMake k } s))) ∧
    (∀ k, d.step = .pulseMake k → 1 < k →
      Follows (.pulseMakeEnd l) s (withRelay l false (withDial l { d with step := .pulseBreak (k - 1) } s))) ∧
    (∀ k, d.step = .pulseMake k → k ≤ 1 →
      (d.record.position + 1 < d.record.string.length →
        Follows (.pulseMakeEnd l) s (withDial l { moved d with step := .digitPause } s)) ∧
      (d.record.string.length ≤ d.record.position + 1 → ∃ u, Begins l next u ∧ Follows (.pulseMakeEnd l) s u)) ∧
    (d.step = .none → Follows (.dialPauseEnd l) s s ∧ Follows (.flashEnd l) s s ∧ Follows (.digitPauseEnd l) s s ∧
      Follows (.pulseBreakEnd l) s s ∧ Follows (.pulseMakeEnd l) s s ∧ Follows (.dialToneWaitTimeout l) s s)

/-- DIAL (R51, R54): from IDLE, or SEIZED with purpose NONE, the line is off hook and DIALLING, its unit in TONES, and the dialler waits for
dial tone, or, blind, begins the string; with the EXT input off hook the dial ends with LINE-IN-USE. A bad string or purpose, a line
at work, a data call with no computer or a link in use are refused in that order.
Where the spec leaves a choice it is the model's, of logs 17 and 45. -/
def Obligations.DialBeginsOrIsRefused : Prop :=
  ∀ (h : CmdHead) (l : LineId) (n : Nat) (a : DialArgs) (s : State), lineOfNat n = some l → Takes h (.dial n a) s →
    (s.lc.get l).controller = .port h.port →
    let r := s.lc.get l
    let free := r.state = .idle ∨ (r.state = .seized ∧ r.purpose = .none)
    (a.string = [] ∨ 40 < a.string.length ∨ none ∈ a.string ∨ a.purpose = .bad ∨
        a.purpose = .val .fax ∨ a.purpose = .val .talk ∨ a.purpose = .val .none → Does (.dial h n a) h .badArgument s s) ∧
    ∀ str : List DialSym, a.string = str.map some → 1 ≤ str.length → str.length ≤ 40 →
      (a.purpose = .absent ∨ a.purpose = .val .voice ∨ a.purpose = .val .data →
        (r.state = .dialling ∨ r.state = .awaiting → Does (.dial h n a) h .busy s s) ∧
        (r.state ≠ .dialling → r.state ≠ .awaiting → ¬ free → Does (.dial h n a) h .wrongState s s)) ∧
      (a.purpose = .val .data → free →
        (s.pc.cp.state ≠ .ready → Does (.dial h n a) h .notReady s s) ∧
        (s.pc.cp.state = .ready → ¬ canData s → Does (.dial h n a) h .inUse s s)) ∧
      (a.purpose = .absent ∨ a.purpose = .val .voice ∨ (a.purpose = .val .data ∧ canData s) → free →
        let q : Purpose := if a.purpose = .val .data then .data else .voice
        let dq : DialPurpose := if a.purpose = .val .data then .data else .voice
        let limit := match a.limit with | some v => clampNat 1 15 v | none => 8
        let d : Dialler := ⟨⟨some (.port h.port), .dialling, str, 0, false, false, 0, limit, dq,
          (s.dq.get l).record.outcome⟩, .none, false⟩
        let flags : List ChangeFlag := if r.state = .idle then [.state, .state] else [.state]
        (s.pins.ext.get l = false → ∃ v, LineOnly l (withDial l d s) v ∧ UnitAsked l .tones s v ∧ Shows l flags s v ∧
          v.lc.get l = { r with state := .dialling, purpose := q, hook := true, faultTimer := .stopped,
                                loopBreak := if r.state = .idle then !s.pins.loop.get l else r.loopBreak,
                                changes := (v.lc.get l).changes } ∧
          (a.blind = false → Does (.dial h n a) h .accepted s (withDial l { d with step := .dialTone true } v)) ∧
          (a.blind = true → ∃ u, Begins l v u ∧ Does (.dial h n a) h .accepted s u)) ∧
        (s.pins.ext.get l = true → r.entryRef = none → ∃ u, Does (.dial h n a) h .accepted s u ∧
          (u.dq.get l).record.phase = .idle ∧ (u.dq.get l).record.owner = none ∧
          (u.dq.get l).record.outcome = some .lineInUse ∧ (u.lc.get l).state = .clearing ∧ (u.lc.get l).hook = false ∧
          (u.su.get l).mode = .quiet))

/-- QUEUE CALL, CANCEL CALL, REMOVE CALL and LIST CALLS (R55, R56, R62, R63): a call is put in the lowest EMPTY slot with its numbers clamped
and the next creation order, or with none EMPTY in that of the oldest finished call, a call to a message opening the entry's handle; with all
eight active it is QUEUE-FULL. A WAITING call is cancelled at once and its handle closed, one DIALLING or IN-CALL with its line cleared; a
finished one is removed, and the list gives every slot that is not EMPTY in number order.
Where the spec leaves a choice it is the model's: the values an EMPTY entry's absent fields hold (log 33), and log 17. -/
def Obligations.CallsAreQueued : Prop :=
  (∀ (h : CmdHead) (a : QueueArgs) (str : List DialSym) (p : QueuePurpose) (n : Fin 8) (s : State), Takes h (.queueCall a) s →
    a.string = str.map some → 1 ≤ str.length → str.length ≤ 40 → a.purpose = some p → a.pref ≠ .bad →
    (s.queue[n].state = .empty ∧ ∀ k < n, s.queue[k].state ≠ .empty) ∨
      (callOver s.queue[n] ∧ (∀ k : Fin 8, s.queue[k].state ≠ .empty) ∧
        ∀ k : Fin 8, k ≠ n → callOver s.queue[k] → (s.queue[n].finish).getD 0 < (s.queue[k].finish).getD 0) →
    let e := fun (m : Option (Fin 128)) => (
      { state := .waiting, order := s.createCounter, finish := none, string := str, blind := a.blind, purpose := p, message := m,
        pref := match a.pref with | .val v => v | _ => .either, line := none,
        earliest := s.queueTime + (match a.delay with | some v => clampNat 0 86400 v | none => 0), attempts := 0,
        attemptLimit := match a.attempts with | some v => clampNat 1 9 v | none => 3,
        interval := match a.interval with | some v => clampNat 1 30 v | none => 5,
        ringLimit := match a.limit with | some v => clampNat 1 15 v | none => 8, outcome := none } : QueueEntry)
    let answer := fun u => Follows (.queueCall h a) s (answered h .accepted (.entryNumber n.val) u)
    (p = .data ∨ p = .ringOnly → a.message = none →
      ∃ u, EntrySet n (e none) { s with createCounter := s.createCounter + 1 } u ∧ answer u) ∧
    (∀ m : Fin 128, p = .faxSend ∨ p = .voiceDeliver → a.message = some m.val →
      s.store.dir[m].state = .complete →
      (if p = .faxSend then s.store.dir[m].kind.isFax else s.store.dir[m].kind.isVoice) = true →
      ∃ u, EntrySet n (e (some m)) { s with createCounter := s.createCounter + 1 } u ∧
        answer { u with store := { u.store with handles := u.store.handles ++ [⟨.entry n, m, false, 0⟩] } }) ∧
    (∀ m : Fin 128, p = .faxSend ∨ p = .voiceDeliver → a.message = some m.val →
      s.store.dir[m].state = .free ∨ s.store.dir[m].state = .deletePending → Does (.queueCall h a) h .notFound s s)) ∧
  (∀ (h : CmdHead) (a : QueueArgs) (s : State), Takes h (.queueCall a) s →
    a.string = [] ∨ 40 < a.string.length ∨ none ∈ a.string ∨ a.purpose = none ∨ a.pref = .bad →
    Does (.queueCall h a) h .badArgument s s) ∧
  (∀ (h : CmdHead) (a : QueueArgs) (str : List DialSym) (p : QueuePurpose) (s : State), Takes h (.queueCall a) s →
    a.string = str.map some → 1 ≤ str.length → str.length ≤ 40 → a.purpose = some p → a.pref ≠ .bad →
    (p = .data ∨ p = .ringOnly → a.message.isSome → Does (.queueCall h a) h .badArgument s s) ∧
    (p = .faxSend ∨ p = .voiceDeliver → a.message = none ∨ (∃ k, a.message = some k ∧ 128 ≤ k) →
      Does (.queueCall h a) h .badArgument s s) ∧
    (∀ m : Fin 128, p = .faxSend ∨ p = .voiceDeliver → a.message = some m.val →
      s.store.dir[m].state = .writing ∨ s.store.dir[m].state = .complete →
      let fits := (if p = .faxSend then s.store.dir[m].kind.isFax else s.store.dir[m].kind.isVoice) = true
      (¬ fits → Does (.queueCall h a) h .badArgument s s) ∧
      (fits → s.store.dir[m].state = .writing → Does (.queueCall h a) h .wrongState s s)) ∧
    ((∀ k : Fin 8, s.queue[k].state = .waiting ∨ s.queue[k].state = .dialling ∨ s.queue[k].state = .inCall) →
      p = .data ∨ p = .ringOnly → a.message = none → Does (.queueCall h a) h .queueFull s s)) ∧
  (∀ (h : CmdHead) (n : Fin 8) (s : State),
    let e := s.queue[n]
    (Takes h (.cancelCall n.val) s →
      (e.state = .empty → Does (.cancelCall h n.val) h .notFound s s) ∧
      let ended : QueueEntry := { e with state := .cancelled, finish := some s.finishCounter, line := none,
                                          outcome := some (.dial .cancelled) }
      (e.state = .waiting → (∀ x, s.store.handle? (.entry n) = some x → s.store.dir[x.entry].state ≠ .deletePending) →
        ∃ u, EntrySet n ended s u ∧ Does (.cancelCall h n.val) h .ok s
          { u with finishCounter := s.finishCounter + 1,
                   store := { s.store with handles := s.store.handles.filter fun x => x.holder != .entry n } }) ∧
      (∀ l, e.state = .dialling ∨ e.state = .inCall → e.line = some l → (s.lc.get l).entryRef = some n →
        (s.lc.get l).state.offHook = true →
        (e.state = .dialling → ((s.lc.get l).state = .dialling ∨ (s.lc.get l).state = .awaiting) ∧
          (s.dq.get l).record.owner = some (.entry n)) →
        ∃ u, Does (.cancelCall h n.val) h .ok s u ∧ CallCleared l false (s.lc.get l).controller s u ∧ u.queue[n] = ended ∧
          u.store.handle? (.entry n) = none) ∧
      (e.state = .done ∨ e.state = .failed ∨ e.state = .cancelled → Does (.cancelCall h n.val) h .wrongState s s)) ∧
    (Takes h (.removeCall n.val) s →
      (e.state = .empty → Does (.removeCall h n.val) h .notFound s s) ∧
      (e.state = .done ∨ e.state = .failed ∨ e.state = .cancelled → ∃ u, EntrySet n
        ⟨.empty, 0, none, [], false, .ringOnly, none, .either, none, 0, 0, 0, 0, 0, none⟩ s u ∧ Does (.removeCall h n.val) h .ok s u) ∧
      (e.state = .waiting ∨ e.state = .dialling ∨ e.state = .inCall → Does (.removeCall h n.val) h .wrongState s s))) ∧
  ∀ (h : CmdHead) (s : State), Takes h .listCalls s → ∃ v : List CallView, OnlyAnswers (.listCalls h) h .ok (.calls v) s ∧
    v.map (fun c => c.number) = ([0, 1, 2, 3, 4, 5, 6, 7] : List (Fin 8)).filter (fun n => s.queue[n].state != .empty) ∧
    ∀ c ∈ v, c = { c with
      state := s.queue[c.number].state, purpose := s.queue[c.number].purpose, string := s.queue[c.number].string,
      blind := s.queue[c.number].blind, message := s.queue[c.number].message, pref := s.queue[c.number].pref,
      line := s.queue[c.number].line, remaining := s.queue[c.number].earliest - s.queueTime,
      attempts := s.queue[c.number].attempts, attemptLimit := s.queue[c.number].attemptLimit,
      interval := s.queue[c.number].interval, ringLimit := s.queue[c.number].ringLimit, outcome := s.queue[c.number].outcome }

/-! ## The Message Store -/

namespace Sys2Proof.Claims

/-- The store changes to `t` and a STORE notice with these words is raised to both ports, or none where no word stands (R86). -/
def StoreTo (t : Store) (ws : List Word) (s u : State) : Prop :=
  u = { s with store := t, pc := u.pc } ∧ Notices (if ws = [] then [] else [⟨.store, .store, ws⟩]) s u

/-- One directory entry replaced. -/
def withEntry (n : Fin 128) (e : DirEntry) (st : Store) : Store := { st with dir := st.dir.set n e }

/-- A command on a directory entry is answered with a code and changes nothing. -/
def EntryRefused (h : CmdHead) (n : Nat) (code : Result) (s : State) : Prop :=
  (Takes h (.openEntry n) s → OnlyAnswers (.openEntry h n) h code .none s) ∧
  (Takes h (.delete n) s → Does (.delete h n) h code s s) ∧
  (∀ on, Takes h (.protect n on) s → OnlyAnswers (.protect h n on) h code .none s) ∧
  (Takes h (.markReviewed n) s → OnlyAnswers (.markReviewed h n) h code .none s) ∧
  (Takes h (.markUnreviewed n) s → OnlyAnswers (.markUnreviewed h n) h code .none s) ∧
  (Takes h (.messageInfo n) s → OnlyAnswers (.messageInfo h n) h code .none s)

end Sys2Proof.Claims

/-- OPEN, CLOSE, DELETE, PROTECT, MARK REVIEWED and MARK UNREVIEWED (R74, R79, R80, R83): a handle on the lowest free number, closed by its port; an
unguarded COMPLETE entry is freed, its blocks going to the tail of the free list in order, or DELETE-PENDING while a handle is open; a
mark changes its own flag. A number above 127 is BAD-ARGUMENT, a FREE or DELETE-PENDING entry NOT-FOUND.

The store's own changes of its entries, as the controllers ask for them: a VOICE write that completes adds one to its mailbox's new-message
count, and a reader already at its length then sets REVIEWED and takes it off again, each change with its STORE notice (R77, R82, R86); a
GREETING or ANNOUNCE that completes replaces the older one (R81); a call note is made in the lowest FREE slot, else in that of the oldest
reviewed call note, else not at all (R68). -/
def Obligations.EntriesAreOpenedMarkedAndDeleted : Prop :=
  (∀ (n : Fin 128) (m : Fin 5) (stop : Option StopReason) (s : State), s.store.dir[n].state = .writing →
    s.store.dir[n].mailbox = some m →
    let e := s.store.dir[n]
    let t := completeWrite n stop s
    let done : DirEntry := { e with committed := e.length, state := .complete, stop := stop, completed := true }
    let left := s.store.handles.filter fun x => !(x.entry == n && x.write)
    let reader := ∃ x ∈ s.store.handles, x.entry = n ∧ x.write = false ∧ x.pos = e.length
    (e.kind = .voice → e.reviewed = false →
      (¬ reader ∨ e.length = 0 → StoreTo { withEntry n done s.store with handles := left } [.directory, .counts] s t ∧
        t.store.newCount m = s.store.newCount m + 1) ∧
      (reader → 0 < e.length → t = { s with store := t.store, pc := t.pc } ∧
        t.store = { withEntry n { done with reviewed := true } s.store with handles := left } ∧
        Notices [⟨.store, .store, [.directory, .counts]⟩, ⟨.store, .store, [.directory, .counts]⟩] s t ∧
        t.store.newCount m = s.store.newCount m)) ∧
    (e.kind = .greeting ∨ e.kind = .announce → (∀ k : Fin 128, s.store.dir[k].kind.isVoice = true → s.store.dir[k].pageList = []) →
      (∀ q : Fin 8, s.queue[q].state ≠ .waiting) → t.store.dir[n] = done ∧
      ∀ k : Fin 128, k ≠ n →
        (s.store.dir[k].state = .complete ∧ s.store.dir[k].kind = e.kind ∧ s.store.dir[k].mailbox = some m →
          t.store.dir[k] = if s.store.openCount k = 0 then .free else { s.store.dir[k] with state := .deletePending }) ∧
        (s.store.dir[k].state ≠ .complete ∨ s.store.dir[k].kind ≠ e.kind ∨ s.store.dir[k].mailbox ≠ some m →
          t.store.dir[k] = s.store.dir[k]))) ∧
  (∀ (l : LineId) (s : State),
    let t := askCallNote l s
    let note : DirEntry := { DirEntry.free with
      seqNo := s.store.seqCounter, kind := .callNote, state := .complete, completed := true, source := .line l,
      stamp := if s.tod.isSet then some s.tod.time else none, caller := (s.lc.get l).caller }
    let spent := fun k : Fin 128 =>
      s.store.dir[k].kind = .callNote ∧ s.store.dir[k].state = .complete ∧ s.store.dir[k].reviewed = true
    (∀ n : Fin 128, s.store.dir[n].state = .free → (∀ k < n, s.store.dir[k].state ≠ .free) →
      ∃ ws, StoreTo { withEntry n note s.store with seqCounter := s.store.seqCounter + 1 } ws s t ∧ .directory ∈ ws) ∧
    ((∀ k : Fin 128, s.store.dir[k].state ≠ .free) →
      ((∀ k, ¬ spent k) → t = s) ∧
      ∀ (n : Fin 128) (base : BitVec 32), spent n → s.store.dir[n].pageList = [] →
        (∀ k : Fin 128, (s.store.dir[k].seqNo - base).toNat < 2147483648) →
        (∀ k, k ≠ n → spent k → (s.store.dir[n].seqNo - base).toNat < (s.store.dir[k].seqNo - base).toNat) →
        t.store.dir[n] = note ∧ (∀ k : Fin 128, k ≠ n → t.store.dir[k] = s.store.dir[k]) ∧
          t.store.seqCounter = s.store.seqCounter + 1)) ∧
  ∀ (h : CmdHead) (s : State),
    (∀ n : Nat, 128 ≤ n → EntryRefused h n .badArgument s) ∧
    ∀ n : Fin 128,
      let e := s.store.dir[n]
      let live := e.state = .writing ∨ e.state = .complete
      (e.state = .free ∨ e.state = .deletePending → EntryRefused h n.val .notFound s) ∧
      (Takes h (.openEntry n.val) s → live →
        (e.kind = .callNote → OnlyAnswers (.openEntry h n.val) h .wrongState .none s) ∧
        (e.kind ≠ .callNote → (∀ k, (s.store.handle? (.port h.port k)).isSome) →
          OnlyAnswers (.openEntry h n.val) h .noHandle .none s) ∧
        (∀ k : Fin 4, e.kind ≠ .callNote → s.store.handle? (.port h.port k) = none →
          (∀ j < k, (s.store.handle? (.port h.port j)).isSome) →
          exec (.openEntry h n.val) s = .next (answered h .ok (.opened k e.kind e.state e.length e.committed)
            { s with store := { s.store with handles := s.store.handles ++ [⟨.port h.port k, n, false, 0⟩] } }))) ∧
      (∀ (k : Fin 4) (x : Handle), Takes h (.close k.val) s → s.store.handle? (.port h.port k) = some x →
        let bound := (s.st.get h.port).outb.binding = some (.handle k) ∨
          ((s.st.get h.port).inb.binding = some (.handle k) ∧ (s.st.get h.port).inb.state = .active)
        (bound → OnlyAnswers (.close h k.val) h .inUse .none s) ∧
        (¬ bound → s.store.dir[x.entry].state ≠ .deletePending → exec (.close h k.val) s = .next (answered h .ok .none
          { s with store := { s.store with handles := s.store.handles.filter fun y => y.holder != .port h.port k } }))) ∧
      (∀ k : Nat, Takes h (.close k) s → (4 ≤ k → OnlyAnswers (.close h k) h .badArgument .none s) ∧
        ∀ j : Fin 4, j.val = k → s.store.handle? (.port h.port j) = none → OnlyAnswers (.close h k) h .notFound .none s) ∧
      (Takes h (.delete n.val) s → live →
        (e.guarded = true → Does (.delete h n.val) h .guarded s s) ∧
        (e.guarded = false → e.state = .complete → (∀ q : Fin 8, s.queue[q].message ≠ some n) →
          (s.store.openCount n = 0 → e.pageList.Nodup → (∀ k ∈ e.pageList, s.store.pages[k].owner = n) → ∃ u ws,
            Does (.delete h n.val) h .ok s u ∧ StoreTo u.store ws s u ∧
            u.store.freeList = s.store.freeList ++ e.blocks.map (fun b => b.num) ∧ u.store.dir[n] = .free ∧
            (∀ k, k ≠ n → u.store.dir[k] = s.store.dir[k]) ∧ (∀ k ∈ e.pageList, u.store.pages[k].inUse = false) ∧
            (∀ k, k ∉ e.pageList → u.store.pages[k] = s.store.pages[k]) ∧ u.store.handles = s.store.handles ∧
            u.store.dram = s.store.dram) ∧
          (s.store.openCount n ≠ 0 → ∃ u ws, Does (.delete h n.val) h .ok s u ∧
            StoreTo (withEntry n { e with state := .deletePending } s.store) ws s u ∧ .directory ∈ ws))) ∧
      (∀ on, Takes h (.protect n.val on) s → e.state = .complete → ∃ u ws,
        exec (.protect h n.val on) s = .next (answered h .ok .none u) ∧
        StoreTo (withEntry n { e with guarded := on } s.store) ws s u ∧ ws = if e.guarded = on then [] else [.directory]) ∧
      (∀ (i : Instr) (on : Bool),
        (i = .markReviewed h n.val ∧ on = true ∧ Takes h (.markReviewed n.val) s) ∨
        (i = .markUnreviewed h n.val ∧ on = false ∧ Takes h (.markUnreviewed n.val) s) →
        (e.state = .writing → OnlyAnswers i h .wrongState .none s) ∧
        (e.state = .complete →
          (e.kind = .greeting ∨ e.kind = .announce ∨ e.kind = .faxOut → OnlyAnswers i h .badArgument .none s) ∧
          (e.kind = .voice ∨ e.kind = .faxIn ∨ e.kind = .callNote → ∃ u ws, exec i s = .next (answered h .ok .none u) ∧
            StoreTo (withEntry n { e with reviewed := on } s.store) ws s u ∧ (.directory ∈ ws ↔ e.reviewed ≠ on))))

/-- STORE STATUS, SET RESERVE, LIST MESSAGES and MESSAGE INFO (R73, R84): the store's figures; the reserve clamped to 0..255; every WRITING and
COMPLETE entry of the kind and mailbox named, in ascending creation sequence; an entry's fields, its block list left out, with its pages.

ERASE STORE (R85): BUSY while a handle is open or an entry is in WRITING; else every entry and page is free, the free list holds all N blocks
in ascending order, the counter and the new-message counts are 0, no handle is open, the arbiter's rotation starts from L0 and CP inbound, the reserve is kept,
and the queue keeps its entry numbers.
The model's choices: what ERASE STORE makes of the arbiter's rotation and of the queue (log 36), and LIST MESSAGES with a mailbox above 4, which
answers OK with an empty list (log 64). -/
def Obligations.StoreIsReportedAndErased : Prop :=
  (∀ (h : CmdHead) (s : State), Takes h .eraseStore s →
      (s.store.handles ≠ [] ∨ (∃ n : Fin 128, s.store.dir[n].state = .writing) → OnlyAnswers (.eraseStore h) h .busy .none s) ∧
      (s.store.handles = [] → (∀ n : Fin 128, s.store.dir[n].state ≠ .writing) → ∃ u ws,
        exec (.eraseStore h) s = .next (answered h .ok .none u) ∧
        StoreTo u.store ws { s with arb := { s.arb with lastLine := .fax .line1, lastStream := ⟨.pp, .outbound⟩ } } u ∧
        u.queue = s.queue ∧
        (∀ n : Fin 128, u.store.dir[n].state = .free) ∧ (∀ k : Fin 256, u.store.pages[k].inUse = false) ∧
        u.store.freeList = List.range s.store.nBlocks ∧ u.store.nBlocks = s.store.nBlocks ∧ u.store.reserve = s.store.reserve ∧
        u.store.seqCounter = 0 ∧ u.store.newCounts = [0, 0, 0, 0, 0] ∧ u.store.handles = [] ∧ u.store.dram = s.store.dram)) ∧
  ∀ (h : CmdHead) (s : State),
    let st := s.store
    (Takes h .storeStatus s → ∃ v : StoreView, OnlyAnswers (.storeStatus h) h .ok (.store v) s ∧
      v.bytes = 512 * st.nBlocks ∧ v.nBlocks = st.nBlocks ∧ v.free = st.freeList.length ∧ v.reserve = st.reserve ∧
      v.freeEntries = ((List.finRange 128).filter fun n => st.dir[n].state == .free).length ∧
      v.freePages = ((List.finRange 256).filter fun k => st.pages[k].inUse == false).length ∧
      v.counts = (List.finRange 5).map (fun m => ((List.finRange 128).filter fun n =>
        st.dir[n].state == .complete && st.dir[n].kind == .voice && st.dir[n].mailbox == some m &&
          st.dir[n].reviewed == false).length) ∧
      v.handles = st.handles.length ∧ v.clockSet = s.tod.isSet) ∧
    (∀ k : Nat, Takes h (.setReserve k) s → ∃ u ws, exec (.setReserve h k) s = .next (answered h .ok .none u) ∧
      StoreTo { st with reserve := min 255 k } ws s u ∧ ws = if st.reserve = min 255 k then [] else [.space]) ∧
    (∀ (kind : Option Kind) (mailbox : Option Nat) (base : BitVec 32), Takes h (.listMessages kind mailbox) s →
      ∃ v : List MessageView, OnlyAnswers (.listMessages h kind mailbox) h .ok (.messages v) s ∧
        (v.map fun m => m.number).Nodup ∧
        (∀ n : Fin 128, n ∈ v.map (fun m => m.number) ↔
          (st.dir[n].state = .writing ∨ st.dir[n].state = .complete) ∧ (∀ k, kind = some k → st.dir[n].kind = k) ∧
            ∀ m, mailbox = some m → ∃ x, st.dir[n].mailbox = some x ∧ x.val = m) ∧
        (∀ m ∈ v, m = ⟨m.number, st.dir[m.number].seqNo, st.dir[m.number].kind, st.dir[m.number].state,
          st.dir[m.number].mailbox, st.dir[m.number].source, st.dir[m.number].stamp, st.dir[m.number].length,
          st.dir[m.number].committed, st.dir[m.number].reviewed, st.dir[m.number].truncated, st.dir[m.number].guarded⟩) ∧
        ((∀ n : Fin 128, st.dir[n].state ≠ .free → (st.dir[n].seqNo - base).toNat < 2147483648) →
          v.Pairwise fun a b => (a.seqNo - base).toNat ≤ (b.seqNo - base).toNat)) ∧
    ∀ n : Fin 128, Takes h (.messageInfo n.val) s → st.dir[n].state = .writing ∨ st.dir[n].state = .complete →
      ∃ v : InfoView, OnlyAnswers (.messageInfo h n.val) h .ok (.info v) s ∧ v.number = n ∧
        v.entry = { st.dir[n] with blocks := [] } ∧ v.handles = (st.handles.filter fun x => x.entry == n).length ∧
        v.pages.map (fun p => p.entry) = if st.dir[n].kind.isFax then st.dir[n].pageList.map fun k => st.pages[k] else []

/-- The clock (R89): SET CLOCK clamps each field and then the day to its month, and sets the flag; READ CLOCK answers the fields; a tick
adds a second, each field carrying into the next, in standby too; nothing else changes. -/
def Obligations.ClockCountsTheYear : Prop :=
  let days : List Nat := [31, 29, 31, 30, 31, 30, 31, 31, 30, 31, 30, 31]
  (∀ (h : CmdHead) (a : ClockArgs) (s : State), Takes h (.setClock a) s →
    let m := clampNat 1 12 a.month
    exec (.setClock h a) s = .next (answered h .ok .none
      { s with tod := ⟨⟨m, clampNat 1 days[m - 1]! a.day, clampNat 0 23 a.hour, clampNat 0 59 a.minute, clampNat 0 59 a.second⟩,
                       true⟩ })) ∧
  (∀ (h : CmdHead) (s : State), Takes h .readClock s → OnlyAnswers (.readClock h) h .ok (.clock s.tod.time s.tod.isSet) s) ∧
  ∀ s : State, ClockOk s.tod.time → ∃ t : ClockTime, exec .clockTick s = .next { s with tod := ⟨t, s.tod.isSet⟩ } ∧
    let seconds := fun (x : ClockTime) =>
      ((((days.take (x.month - 1)).sum + x.day - 1) * 24 + x.hour) * 60 + x.minute) * 60 + x.second
    ClockOk t ∧ seconds t = (seconds s.tod.time + 1) % (366 * 86400)

/-- The memory arbiter (R87): a refresh request is served at once by an arbiter at rest, and waits for a burst in progress; when a burst ends a
pending refresh comes first, then a line-side client, then a stream, each class in its rotation from the client after the last served. In
standby only refresh is served (R92). A burst takes effect only if its client still needs it: one whose operation has ended or is another is
finished without effect. A burst of a recording writes its 64 bytes at their place in the block, the eighth committing the block's
samples; one of a playback brings 64 bytes; one of a stream moves 64 bytes between its buffer and the entry's content (R75, R103, R106, R192,
R193). A burst outside the DRAM is the block's one fault.
Where the spec leaves a choice it is the model's, of logs 19 and 38. -/
def Obligations.ArbiterServesInOrder : Prop :=
  (∀ s : State, exec .refreshRequest s = .next { s with
    arb := if s.arb.current.isSome then { s.arb with refresh := true }
           else { s.arb with refresh := false, current := some .refresh } }) ∧
  (∀ s : State, s.arb.current = none → exec .burstEnd s = .next s) ∧
  (∀ (s : State) (v : Service), s.arb.current = some v → s.standby = true → exec .burstEnd s = .next { markBurst v false s with
    arb := { s.arb with refresh := false, current := if s.arb.refresh then some .refresh else none } }) ∧
  (∀ (s : State) (v : Service), Runs s → s.arb.current = some v → burstInside s = true → burstServes v s = false →
    Follows .burstEnd s { markBurst v false s with arb := { s.arb with current := none } }) ∧
  (∀ s : State, Runs s → s.arb.current = some .refresh →
    Follows .burstEnd s { s with arb := { s.arb with current := none } }) ∧
  (∀ (s : State) (v : Service) (b : Nat), Runs s → s.arb.current = some v → burstBlock s v = some b → s.store.nBlocks ≤ b →
    exec .burstEnd s = .fault .outsideDram) ∧
  (∀ (c : CtxId) (b : Nat) (s : State), Runs s → s.arb.current = some (.line (.voice c)) → (s.vp.get c).other.block = some b →
    b < s.store.nBlocks → (s.vp.get c).burst = true →
    let v := s.vp.get c
    let k := v.other.served
    let dram := memWriteBytes (512 * b + 64 * k) ((v.other.bytes.drop (64 * k)).take 64) s.store.dram
    let ended := { s with arb := { s.arb with current := none } }
    (v.activity = .recording → k < 7 → Follows .burstEnd s { ended with
      vp := s.vp.set c { v with other := { v.other with served := k + 1 }, burst := false }, store := { s.store with dram := dram } }) ∧
    (∀ n, v.activity = .recording → k = 7 → v.lateDrop = none → v.entry = some n → Follows .burstEnd s { ended with
      vp := s.vp.set c { v with other := ⟨[], none, 0, 0⟩, burst := false },
      store := { s.store with
        dram := dram,
        dir := s.store.dir.set n { s.store.dir[n] with committed := s.store.dir[n].committed + v.other.samples } } }) ∧
    (v.activity = .playing → k < 7 ∨ (k = 7 ∧ v.primed = true) → Follows .burstEnd s { ended with
      vp := s.vp.set c { v with other := { v.other with
        bytes := v.other.bytes ++ memReadBytes (512 * b + 64 * k) 64 s.store.dram, served := k + 1 }, burst := false } })) ∧
  (∀ (p : PortId) (n : Fin 4) (x : Handle) (bs : List Byte) (cs : List (List Byte)) (s : State), Runs s →
    s.arb.current = some (.stream ⟨p, .inbound⟩) → burstInside s = true → s.store.handle? (.port p n) = some x →
    let i := (s.st.get p).inb
    let e := s.store.dir[x.entry]
    let w := i.written + 64
    i.state = .active → i.burst = true → i.binding = some (.handle n) → e.kind = .faxOut → i.written % 64 = 0 → i.slots = bs :: cs → bs.length = 64 →
    Follows .burstEnd s { s with
      arb := { s.arb with current := none },
      store := { s.store with
        dram := writeContent e.blocks i.written bs s.store.dram,
        dir := s.store.dir.set x.entry { e with length := w, committed := if w % 512 = 0 then w else e.committed } },
      st := s.st.set p { s.st.get p with inb := { i with slots := cs, credit := i.credit + 1, written := w, burst := false } },
      pc := s.pc.set p { s.pc.get p with creditOut := (s.pc.get p).creditOut ++ [1] } }) ∧
  (∀ (p : PortId) (n : Fin 4) (x : Handle) (s : State), Runs s →
    s.arb.current = some (.stream ⟨p, .outbound⟩) → burstInside s = true → s.store.handle? (.port p n) = some x →
    let o := (s.st.get p).outb
    let e := s.store.dir[x.entry]
    o.state = .active → o.burst = true → o.binding = some (.handle n) → e.kind = .faxOut → o.buffer.length ≤ 448 → x.pos % 512 ≤ 448 →
    x.pos + 64 ≤ e.committed →
    Follows .burstEnd s { s with
      arb := { s.arb with current := none },
      store := { s.store with
        handles := s.store.handles.map fun y => if y.holder = .port p n then { y with pos := x.pos + 64 } else y },
      st := s.st.set p { s.st.get p with outb := { o with
        buffer := o.buffer ++ readContent e.blocks x.pos 64 s.store.dram, burst := false } } }) ∧
  ∀ s : State, s.arb.current = none → Runs s →
    (s.arb.refresh = true → (kick s).arb = { s.arb with refresh := false, current := some .refresh }) ∧
    (s.arb.refresh = false →
      (∀ (a b : List LineClient) (c : LineClient), rotation s.arb.lastLine lineClients = a ++ c :: b →
        (∀ x ∈ a, linePending s x = false) → linePending s c = true →
        (kick s).arb = { s.arb with current := some (.line c), lastLine := c }) ∧
      ((∀ x, linePending s x = false) → ∀ (a b : List StreamClient) (c : StreamClient),
        rotation s.arb.lastStream streamClients = a ++ c :: b → (∀ x ∈ a, streamPending s x = false) →
        streamPending s c = true → (kick s).arb = { s.arb with current := some (.stream c), lastStream := c }) ∧
      ((∀ x, linePending s x = false) → (∀ x, streamPending s x = false) → kick s = s)) ∧
    rotation s.arb.lastLine lineClients =
      (match s.arb.lastLine with
       | .voice .l0 => [.voice .l1, .voice .loc, .fax .line0, .fax .line1, .voice .l0]
       | .voice .l1 => [.voice .loc, .fax .line0, .fax .line1, .voice .l0, .voice .l1]
       | .voice .loc => [.fax .line0, .fax .line1, .voice .l0, .voice .l1, .voice .loc]
       | .fax .line0 => [.fax .line1, .voice .l0, .voice .l1, .voice .loc, .fax .line0]
       | .fax .line1 => [.voice .l0, .voice .l1, .voice .loc, .fax .line0, .fax .line1]) ∧
    rotation s.arb.lastStream streamClients =
      (match s.arb.lastStream with
       | ⟨.cp, .inbound⟩ => [⟨.cp, .outbound⟩, ⟨.pp, .inbound⟩, ⟨.pp, .outbound⟩, ⟨.cp, .inbound⟩]
       | ⟨.cp, .outbound⟩ => [⟨.pp, .inbound⟩, ⟨.pp, .outbound⟩, ⟨.cp, .inbound⟩, ⟨.cp, .outbound⟩]
       | ⟨.pp, .inbound⟩ => [⟨.pp, .outbound⟩, ⟨.cp, .inbound⟩, ⟨.cp, .outbound⟩, ⟨.pp, .inbound⟩]
       | ⟨.pp, .outbound⟩ => [⟨.cp, .inbound⟩, ⟨.cp, .outbound⟩, ⟨.pp, .inbound⟩, ⟨.pp, .outbound⟩])

/-! ## The voice path and the Voice Message Controller -/

namespace Sys2Proof.Claims

/-- `s` with a context replaced. -/
def withCtx (c : CtxId) (v : VoiceCtx) (s : State) : State := { s with vp := s.vp.set c v }

/-- One frame sync of a line: its sample clock advances and the codec is sent what its unit makes of `x` (R37, R93). -/
def synced (l : LineId) (x : Int) (s : State) : State :=
  let u := { s.su.get l with sampleClock := (s.su.get l).sampleClock + 1 }
  { s with
    su := s.su.set l u
    vm := { s.vm with lineOut := s.vm.lineOut.set l (u.sends x (s.fc.get l).steady) } }

/-- The line sample as the desk speaker hears it: gained and sent there while the line is screened or bridged (R110, R120). -/
def overheard (l : LineId) (x : Int) (s : State) : State :=
  if s.vm.holder = .screen l ∨ s.vm.holder = .bridge l then
    { s with vm := { s.vm with speakerOut := gain s.vp.loc.settings.playGain x } }
  else s

/-- A voice report changed, with one VOICE notice of its context (R125). -/
def Reported (c : CtxId) (r : Report) (w : Word) (s u : State) : Prop :=
  u.vm = { s.vm with report := s.vm.report.set c r } ∧ Notices [⟨.voice, .ctx c, [w]⟩] s u

/-- What an operation of a context cannot change: the line records, the diallers, the queue, the sessions, the links and faxes, the clocks and
the settings. -/
structure VoiceFrame (s u : State) : Prop where
  kept : u.pending = s.pending ∧ u.standby = s.standby ∧ u.pins = s.pins ∧ u.lc = s.lc ∧ u.dq = s.dq ∧ u.queue = s.queue ∧
    u.queueTime = s.queueTime ∧ u.tod = s.tod ∧ u.fxSet = s.fxSet ∧ u.fx = s.fx ∧ u.clSet = s.clSet ∧ u.cl = s.cl
  settings : ∀ c, (u.vp.get c).settings = (s.vp.get c).settings
  sessions : u.vm.session = s.vm.session ∧ u.vm.accessCode = s.vm.accessCode

/-- The outputs a recording still owes when it is flushed (R98, R99, R104): the prefilter's last output joins the inputs held, and every
output due is made. -/
def owed (v : VoiceCtx) : List Int :=
  let r := resampleRun 4 (recordStep v.format.rate) (v.held ++ prefilterEnd v.format.rate v.hist) v.pos
  r.2.2 ++ resampleEnd 4 (recordStep v.format.rate) r.1 r.2.1

/-- The length of a recording that is flushed into a store with room: the samples placed and owed, or, where fewer, those that reach the
DRAM (R75, R104). -/
def flushedLength (v : VoiceCtx) (e : DirEntry) : Nat :=
  min (e.length + (owed v).length)
    (e.committed + (if v.other.block.isSome then v.other.samples else 0) + v.fill + (owed v).length)

/-- The length of a recording after its stop (R103, R104, R108): STORE-FULL and LATE keep what is committed, with the buffer in transfer; SILENCE and
TONE cut at the storage samples produced before line sample `tail`, less those dropped; LOOP-BREAK cuts off the last 500 ms; the other reasons here
do not cut. -/
def endLength (r : StopReason) (tail : Nat) (v : VoiceCtx) (e : DirEntry) : Nat :=
  match r with
  | .storeFull | .late => min e.length (e.committed + (if v.other.block.isSome then v.other.samples else 0))
  | .silence | .tone => min (flushedLength v e) ((60 * tail + recordStep v.format.rate - 1) / recordStep v.format.rate - v.dropped)
  | .loopBreak => flushedLength v e - Rate.hz v.format.rate / 2
  | _ => flushedLength v e

/-- A recording of a VOICE entry is over for a reason (R104, R108, R109, R119): the context is IDLE; a length of one second of storage samples and more is
kept, COMPLETE with the reason, and a shorter one is discarded. -/
structure RecordingOver (c : CtxId) (n : Fin 128) (r : StopReason) (tail : Nat) (s u : State) : Prop where
  context : u.vp.get c = .idle (s.vp.get c).settings
  report : (u.vm.report.get c).stop = some r ∧ (u.vm.report.get c).op = (s.vm.report.get c).op
  kept : Rate.hz (s.vp.get c).format.rate ≤ endLength r tail (s.vp.get c) s.store.dir[n] →
    (u.vm.report.get c).kept = some true ∧ u.store.dir[n].state = .complete ∧ u.store.dir[n].stop = some r ∧
      u.store.dir[n].length = endLength r tail (s.vp.get c) s.store.dir[n] ∧ u.store.dir[n].committed = u.store.dir[n].length ∧
      (r = .storeFull → u.store.dir[n].truncated = true)
  tooShort : endLength r tail (s.vp.get c) s.store.dir[n] < Rate.hz (s.vp.get c).format.rate →
    (u.vm.report.get c).kept = some false ∧ (u.store.dir[n].state = .free ∨ u.store.dir[n].state = .deletePending)

/-- A port's recording of a VOICE entry has ended for a reason, and nothing else has (R119). -/
structure RecordingEnded (c : CtxId) (n : Fin 128) (r : StopReason) (tail : Nat) (s u : State) : Prop where
  ended : RecordingOver c n r tail s u
  frame : VoiceFrame s u

/-- A context records a VOICE entry for a port, no session being open on its line. -/
def PortWrites (c : CtxId) (n : Fin 128) (s : State) : Prop :=
  (s.vp.get c).activity = .recording ∧ (s.vp.get c).entry = some n ∧ s.store.dir[n].kind = .voice ∧
    s.store.dir[n].state = .writing ∧ (s.vp.get c).lateDrop = none ∧
    ∀ l, c = ctxOf l → (s.vm.session.get l).phase = .none ∧ s.vm.pendingRecord.get l = none

/-- The next storage sample of a playing context and what decoding it makes of the context (R101, R102, R106). -/
def decodedNext (v : VoiceCtx) : Int × VoiceCtx :=
  let code := codedAt v.format.code v.present.bytes v.sampleIdx
  if v.present.bytes = [] then (0, { v with sampleIdx := v.sampleIdx + 1 })
  else match v.format.code with
    | .q4 =>
      let r := q4Decode code v.pred v.step
      (r.1, { v with sampleIdx := v.sampleIdx + 1, pred := r.1, step := r.2 })
    | .q8 => ((if code < 128 then (code : Int) else code - 256) * 256 + 128, { v with sampleIdx := v.sampleIdx + 1 })

/-- A context records a VOICE entry for a port into a store with room for its last two blocks, no session being open on its line. -/
def Portly (c : CtxId) (n : Fin 128) (s : State) : Prop := PortWrites c n s ∧ s.store.reserve + 2 ≤ s.store.freeList.length

/-- In VOICE the event raises a cadence class of a run that began at `m`, of the lowest entry where several come together (R33, R34). -/
def RaisesHeard (l : LineId) (u : SignalUnit) (c : CadenceClass) (m : Moment) (i : Instr) : Prop :=
  ∃ n : Fin 8, u.cadence[n].cls = c ∧
    ((∃ t, i = .toneOn l t ∧ u.mode = .voice ∧ u.onAt = none ∧ CountsUp u t n ∧
        (if u.counters[n].count = 0 then u.pairOn = some m else u.counters[n].runStart = some m) ∧
        ∀ k < n, ¬ CountsUp u t k ∧ (0 < u.cadence[k].repeatCount → u.counters[k].count < u.cadence[k].repeatCount)) ∨
      (i = .continuousCadence l n ∧ u.onAt = some m ∧ u.cadence[n].offMax = 0 ∧ 0 < u.cadence[n].repeatCount ∧
        u.counters[n].reported = false ∧ ∀ k < n, u.cadence[k].onMin ≠ u.cadence[n].onMin))

/-- The event raises a class that tells a voice call's end: DIAL, BUSY or CONGESTION (R117, R118). -/
def RaisesCallEnd (l : LineId) (u : SignalUnit) (m : Moment) (i : Instr) : Prop :=
  ∃ c : CadenceClass, (c = .dial ∨ c = .busy ∨ c = .congestion) ∧ RaisesHeard l u c m i

end Sys2Proof.Claims

/-- LINE_SAMPLE, FRAME_END and SET VOICE (R37, R93 to R103, R110, R113, R119 to R121). An idle context sends its line silence, or the microphone over
a bridge, and a screened or bridged line is heard at the desk; a recording at 9600 codes the sample one before, its next neighbour having
come; at 8000 and 7200 it codes the output its position lies in, once the smoothed inputs on both sides are held, or takes the input
alone; a coded sample grows the entry by one; a playback at any rate sends the gained output its position lies in, decoding the next sample of its
block where that output needs it; a silent frame extends the silence run, which stops the
recording with SILENCE when it has lasted the silence time, and a frame that is not silent ends it.
Where the spec leaves a choice it is the model's, of logs 13 and 14. -/
def Obligations.SamplesAreCodedAndPlayed : Prop :=
  (∀ (l : LineId) (x : BitVec 16) (s : State), Runs s →
    let c := ctxOf l
    let v := s.vp.get c
    let y := gain v.settings.recGain (sampleOf x)
    let heard := overheard l (sampleOf x) s
    (v.activity = .idle → Follows (.lineSample c x) s (synced l (if s.vm.holder = .bridge l then s.vm.micOut else 0) heard)) ∧
    (∀ n : Fin 128, v.activity = .recording → v.entry = some n → v.lateDrop = none → v.frameCount < 192 → v.maxLength = 0 →
      v.fill < blockSamples v.format.code →
      let e := s.store.dir[n]
      let bytes := if v.fill = 0 then headerBytes v.blockSeq v.pred 0 v.step v.format else v.present.bytes
      let measured := { v with frameSum := v.frameSum + y.natAbs, frameCount := v.frameCount + 1, lineCount := v.lineCount + 1 }
      let takes := fun (hist held : List Int) (pos : Nat) =>
        Follows (.lineSample c x) s (withCtx c { measured with hist := hist, held := held, pos := pos } (synced l 0 heard))
      let codes := fun (z : Int) (hist held : List Int) (pos : Nat) =>
        let q := q4Encode z v.pred v.step
        let code := match v.format.code with
          | .q4 => q.1
          | .q8 => (q8Encode z (ditherOf v.dither v.blockSeq e.length) % 256).toNat
        Follows (.lineSample c x) s (withCtx c
          { measured with
            hist := hist, held := held, pos := pos, fill := v.fill + 1, pred := if v.format.code = .q4 then q.2.1 else v.pred,
            step := if v.format.code = .q4 then q.2.2 else v.step,
            present := { v.present with bytes := placeCode v.format.code v.fill code bytes } }
          (synced l 0 { heard with store := withEntry n { e with length := e.length + 1 } s.store }))
      (∀ a b : Int, v.format.rate = .r9600 → v.held = [a, b] → v.pos = 60 → codes b [] [b, y] 60) ∧
      (∀ (a b u0 : Int) (S : Nat), (v.format.rate = .r8000 ∧ S = 72) ∨ (v.format.rate = .r7200 ∧ S = 80) → v.hist = [a, b] →
        let u1 := (a + 2 * b + y + 2) / 4
        (v.held = [u0] → 60 ≤ v.pos → v.pos < 120 → takes [b, y] [u0, u1] v.pos) ∧
        (v.held = [u0] → v.pos < 60 →
          let z := (u0 * (60 - v.pos) + u1 * v.pos + 30) / 60
          (v.pos + S < 120 → codes z [b, y] [u0, u1] (v.pos + S)) ∧
          (120 ≤ v.pos + S → codes z [b, y] [u1] (v.pos + S - 60))) ∧
        ∀ t0 : Int, v.held = [t0, u0] → 60 ≤ v.pos → v.pos < 120 →
          let z := (u0 * (120 - v.pos) + u1 * (v.pos - 60) + 30) / 60
          (v.pos + S < 180 → codes z [b, y] [u0, u1] (v.pos + S - 60)) ∧
          (180 ≤ v.pos + S → codes z [b, y] [u1] (v.pos + S - 120)))) ∧
    (∀ (a b : Int) (S : Nat), v.activity = .playing → v.ended = false → v.waiting = false → v.sampleIdx < v.present.samples →
      (v.format.rate = .r9600 ∧ S = 60) ∨ (v.format.rate = .r8000 ∧ S = 50) ∨ (v.format.rate = .r7200 ∧ S = 45) →
      let sends := fun (w : VoiceCtx) (z : Int) (held : List Int) (pos : Nat) => Follows (.lineSample c x) s
        (withCtx c { w with held := held, pos := pos, lineCount := v.lineCount + 1 } (synced l (gain v.settings.playGain z) heard))
      let moves := fun (w : VoiceCtx) (d : Int) =>
        let z := (b * (120 - v.pos) + d * (v.pos - 60) + 30) / 60
        (v.pos + S < 120 → sends w z [a, b, d] (v.pos + S)) ∧ (120 ≤ v.pos + S → sends w z [b, d] (v.pos + S - 60))
      (∀ rest, v.held = a :: b :: rest → v.pos < 60 → sends v ((a * (60 - v.pos) + b * v.pos + 30) / 60) v.held (v.pos + S)) ∧
      (60 ≤ v.pos → v.pos < 120 → (∀ d, v.held = [a, b, d] → moves v d) ∧ (v.held = [a, b] → moves (decodedNext v).2 (decodedNext v).1)))) ∧
  (∀ (x : BitVec 16) (l : LineId) (s : State), Runs s → s.vp.loc.activity = .idle → s.vm.holder = .bridge l →
    Follows (.lineSample .loc x) s { s with vm := { s.vm with micOut := gain s.vp.loc.settings.recGain (sampleOf x) } }) ∧
  (∀ (c : CtxId) (s : State), Runs s →
    let v := s.vp.get c
    (v.activity = .recording → 192 ≤ v.frameCount → (∀ l, c = ctxOf l → (s.vm.session.get l).classification = false) →
      (192 * v.settings.threshold ≤ v.frameSum → 0 < v.silenceTime → Follows (.frameEnd c) s
        (withCtx c { v with frameSum := 0, frameCount := 0, silenceRun := 0 } s)) ∧
      (v.frameSum < 192 * v.settings.threshold → min 65535 (v.silenceRun + 1) * 20 < v.silenceTime → Follows (.frameEnd c) s
        (withCtx c { v with frameSum := 0, frameCount := 0, silenceRun := min 65535 (v.silenceRun + 1),
                            runStart := if v.silenceRun = 0 then v.lineCount - 192 else v.runStart } s)) ∧
      (∀ n : Fin 128, v.frameSum < 192 * v.settings.threshold → v.silenceTime ≤ min 65535 (v.silenceRun + 1) * 20 →
        v.entry = some n → Portly c n s → ∃ u, Follows (.frameEnd c) s u ∧
          RecordingEnded c n .silence (if v.silenceRun = 0 then v.lineCount - 192 else v.runStart) s u)) ∧
    (v.activity ≠ .recording ∨ v.frameCount < 192 → Follows (.frameEnd c) s s)) ∧
  ∀ (h : CmdHead) (c : CtxId) (a : VoiceArgs) (s : State), Takes h (.setVoice (some c) a) s →
    let held := ∃ l, c = ctxOf l ∧ (s.lc.get l).controller = .port (otherPort h.port)
    let old := (s.vp.get c).settings
    (held → Does (.setVoice h (some c) a) h .lineHeld s s) ∧
    (¬ held → voiceBad c a = true → Does (.setVoice h (some c) a) h .badArgument s s) ∧
    (¬ held → voiceBad c a = false → ∃ w : VoiceSettings,
      Follows (.setVoice h (some c) a) s (answered h .ok (.voice w) (withCtx c { s.vp.get c with settings := w } s)) ∧
      (w.recGain = match a.recGain with | some k => min 31 k | none => old.recGain) ∧
      (w.playGain = match a.playGain with | some k => min 31 k | none => old.playGain) ∧
      (w.rate = match a.rate with | .val k => k | _ => old.rate) ∧ (w.code = match a.code with | .val k => k | _ => old.code) ∧
      (w.dither = match a.dither with | .val k => k | _ => old.dither) ∧
      (w.threshold = match a.threshold with | some k => min 2047 k | none => old.threshold) ∧
      (w.continueLate = match a.continueLate with | .val k => k | _ => old.continueLate) ∧
      (w.silenceTime = match a.silenceTime with | some k => max 1000 (min 15000 k) | none => old.silenceTime) ∧
      (w.maxLength = match a.maxLength with | some k => (if k = 0 then 0 else max 10 (min 600 k)) | none => old.maxLength) ∧
      (w.screening = match a.screening with | .val k => k | _ => old.screening))

/-- VOICE_BLOCK_FULL, BUFFER_TURN and PLAYBACK_RESUME (R88, R103, R105, R106): a full block goes into transfer to the block at the head of the free list; while
the other buffer is in transfer it is LATE, and with continue-on-late the samples that follow are dropped and the entry is TRUNCATED, while without
it a port's recording ends LATE at what the DRAM holds or will; a refused block ends it STORE-FULL and TRUNCATED at the committed length; a
waiting playback takes no turn, and asks for its next block once the committed length has passed its position, and waits no more once its entry has left
WRITING; a playback that has used up its buffer takes the block brought, or skips one that is LATE; a fax sender moves on past the bytes
brought, or is LATE.
Where the spec leaves a choice it is the model's, of logs 12 and 20. -/
def Obligations.VoiceBlocksTakeTheirTurn : Prop :=
  (∀ (c : CtxId) (n : Fin 128) (i : Instr) (s : State), Runs s → (i = .voiceBlockFull c ∨ i = .bufferTurn (.voice c)) →
    let v := s.vp.get c
    let e := s.store.dir[n]
    v.activity = .recording → v.entry = some n → v.lateDrop = none →
    (v.fill < blockSamples v.format.code → Follows i s s) ∧
    (∀ (b : Nat) (bs : List Nat), blockSamples v.format.code ≤ v.fill → v.other.block = none → s.store.freeList = b :: bs →
      s.store.reserve < s.store.freeList.length → ∃ u ws, Follows i s u ∧
        StoreTo u.store ws { s with vp := u.vp } u ∧ u.store.freeList = bs ∧
        u.store.dir = s.store.dir.set n { e with blocks := e.blocks ++ [⟨b, v.fill⟩] } ∧
        u.vp = s.vp.set c { v with other := (u.vp.get c).other, present := ⟨[], none, 0, 0⟩, fill := 0,
                                   blockSeq := (v.blockSeq + 1) % 65536 } ∧
        (u.vp.get c).other.block = some b ∧ (u.vp.get c).other.samples = v.fill ∧ (u.vp.get c).other.served = 0 ∧
        (6 ≤ v.present.bytes.length → ((u.vp.get c).other.bytes.drop 4).take 2 = leBytes 2 v.fill)) ∧
    (blockSamples v.format.code ≤ v.fill → v.other.block.isSome → v.settings.continueLate = true → ∃ u ws, Follows i s u ∧
      u.vp = s.vp.set c { v with lateDrop := some 0 } ∧ u.store = withEntry n { e with truncated := true } s.store ∧
      u.vm = { s.vm with report := s.vm.report.set c { s.vm.report.get c with late := (s.vm.report.get c).late + 1 } } ∧
      Notices ([⟨.voice, .ctx c, [.late]⟩] ++ (if ws = [] then [] else [⟨.store, .store, ws⟩])) s u ∧
      u = { s with vp := u.vp, store := u.store, vm := u.vm, pc := u.pc } ∧ ws = if e.truncated then [] else [.directory]) ∧
    (blockSamples v.format.code ≤ v.fill → v.other.block.isSome → v.settings.continueLate = false → PortWrites c n s →
      ∃ u, Follows i s u ∧ RecordingEnded c n .late 0 s u ∧ (u.vm.report.get c).late = (s.vm.report.get c).late + 1) ∧
    (blockSamples v.format.code ≤ v.fill → v.other.block = none → s.store.freeList.length ≤ s.store.reserve → PortWrites c n s →
      ∃ u, Follows i s u ∧ RecordingEnded c n .storeFull 0 s u)) ∧
  (∀ (c : CtxId) (s : State), Runs s → (s.vp.get c).activity = .idle ∨
      ((s.vp.get c).activity = .playing ∧
        ((s.vp.get c).sampleIdx < (s.vp.get c).present.samples ∨ (s.vp.get c).waiting = true)) →
    Follows (.bufferTurn (.voice c)) s s) ∧
  (∀ (c : CtxId) (h : Holder) (x : Handle) (s : State), Runs s → (s.vp.get c).activity = .playing → (s.vp.get c).holder = some h →
    s.store.handle? h = some x → (s.vp.get c).waiting = false → (s.vp.get c).other.block.isSome →
    (s.vp.get c).present.samples ≤ (s.vp.get c).sampleIdx →
    let v := s.vp.get c
    let e := s.store.dir[x.entry]
    let passed := fun (k : Nat) (u : State) => u.store.handle? h = some { x with pos := min (x.pos + k) e.committed }
    (v.other.served = 8 → ∃ u, Follows (.bufferTurn (.voice c)) s u ∧ (u.vp.get c).present = v.other ∧ (u.vp.get c).sampleIdx = 0 ∧
      (u.vp.get c).pred = headerP v.other.bytes ∧ (u.vp.get c).step = headerK v.other.bytes ∧ (u.vp.get c).primed = true ∧
      u.vm = s.vm ∧ passed v.other.samples u) ∧
    (v.other.served ≠ 8 → v.primed = false → Follows (.bufferTurn (.voice c)) s s) ∧
    ∀ (j : Nat) (b : BlockRef), v.other.served ≠ 8 → v.primed = true → blockAt e.blocks 0 0 x.pos = some (j, b) →
      ∃ u, Follows (.bufferTurn (.voice c)) s u ∧ (u.vp.get c).present = ⟨[], none, b.samples, 0⟩ ∧ (u.vp.get c).sampleIdx = 0 ∧
        (u.vm.report.get c).late = (s.vm.report.get c).late + 1 ∧ passed b.samples u) ∧
  (∀ (l : LineId) (s : State), Runs s →
    let w := s.fw.get l
    ((s.fx.get l).role = .none ∨ ((s.fx.get l).role = .receiver ∧ w.waitingLine = none) →
      Follows (.bufferTurn (.fax l)) s s) ∧
    ((s.fx.get l).role = .sender → w.step = .pageData ∨ w.step = .blockData →
      (faxPending l s = true → ∃ u, Follows (.bufferTurn (.fax l)) s u ∧ u = { s with pc := u.pc } ∧
        Notices [⟨.fax, .line l, [.late]⟩] s u) ∧
      (faxPending l s = false → ∃ u, Follows (.bufferTurn (.fax l)) s u ∧ u.fx = s.fx ∧ u.lc = s.lc ∧ u.store.dram = s.store.dram ∧
        u.fw = s.fw.set l { w with txNext := w.txNext + sendBytes l s, served := 0 }))) ∧
  ∀ (c : CtxId) (x : Handle) (s : State), Runs s → (s.vp.get c).activity = .playing → (s.vp.get c).waiting = true →
    (∃ h, (s.vp.get c).holder = some h ∧ s.store.handle? h = some x) → (s.vp.get c).other.block = none →
    let v := s.vp.get c
    let e := s.store.dir[x.entry]
    (e.state = .writing → e.committed ≤ x.pos → Follows (.playbackResume c) s s) ∧
    (e.state ≠ .writing → e.committed ≤ x.pos →
      Follows (.playbackResume c) s (withCtx c { v with waiting := false, primed := false } s)) ∧
    ∀ (k : Nat) (b : BlockRef), x.pos < e.committed → blockAt e.blocks 0 0 x.pos = some (k, b) →
      Follows (.playbackResume c) s
        (withCtx c { v with waiting := false, primed := false, other := ⟨[], some b.num, b.samples, 0⟩ } s)

/-- How a port's operations end (R105, R108, R109, R119, R122, R124, Table 6-3): STOP, MAX_LENGTH_REACHED, the # key, a class DIAL, BUSY or
CONGESTION and a loop break end a recording with their reasons, flushed, at TONE trimmed, at LOOP-BREAK cut by 500 ms, and kept if it holds one second, else discarded; PLAYBACK_END and
STOP end a playback, its handle closed, the line's unit going to QUIET and LOCAL's holder released.
Where the spec leaves a choice it is the model's, of logs 14 and 20. -/
def Obligations.PortOperationsEnd : Prop :=
  (∀ (c : CtxId) (n : Fin 128) (s : State), Runs s → Portly c n s →
    ((s.vp.get c).maxLength ≠ 0 → (s.vp.get c).maxLength * 9600 ≤ (s.vp.get c).lineCount →
      ∃ u, Follows (.maxLengthReached c) s u ∧ RecordingEnded c n .maxLength 0 s u) ∧
    ((s.vp.get c).maxLength = 0 → Follows (.maxLengthReached c) s s) ∧
    (∀ h : CmdHead, Takes h (.stop (some c)) s → (∀ l, c = ctxOf l → (s.lc.get l).controller = .port h.port) →
      (s.vm.holder ≠ .context ∨ s.vm.localPort ≠ some (otherPort h.port) ∨ c ≠ .loc) →
      ∃ u, Does (.stop h (some c)) h .ok s u ∧ RecordingEnded c n .stopped 0 s u) ∧
    (∀ l, c = ctxOf l → (s.lc.get l).state = .voice → (s.lc.get l).loopBreak = true → ∃ u, Follows (.loopBreak l) s u ∧
      RecordingOver c n .loopBreak 0 s u ∧ (u.lc.get l).state = .clearing ∧ (u.lc.get l).controller = (s.lc.get l).controller) ∧
    ∀ l, c = ctxOf l → (s.lc.get l).state = .voice → (s.su.get l).mode = .voice →
      ((s.su.get l).heardKeypad = false → ∃ u, Follows (.keypadDigit l .hash) s u ∧ RecordingEnded c n .key 0 s u) ∧
      ((s.dq.get l).record.phase = .idle → ∀ i m, RaisesCallEnd l (s.su.get l) m i → ∃ (u : State) (d : Dialler),
        Follows i s u ∧ d.record = (s.dq.get l).record ∧ d.step = (s.dq.get l).step ∧
        RecordingEnded c n .tone (m.clock - (s.vp.get c).startClock) { s with dq := s.dq.set l d } u)) ∧
  (∀ (c : CtxId) (x : Handle) (s : State), Runs s → (s.vp.get c).activity = .playing → (s.vm.report.get c).op = .play →
    (∀ l, c = ctxOf l → s.vm.pendingRecord.get l = none) →
    s.store.handle? (playHolder c) = some x → s.store.dir[x.entry].state ≠ .deletePending →
    let ended := fun (e : PlayEnd) (u : State) =>
      u.vp = s.vp.set c (.idle (s.vp.get c).settings) ∧
      u.store = { s.store with handles := s.store.handles.filter fun y => y.holder != playHolder c } ∧
      u.vm.report = s.vm.report.set c { s.vm.report.get c with playEnd := some e } ∧
      (∀ l, c = ctxOf l → UnitAsked l .quiet s u) ∧ (c = .loc → u.su = s.su ∧ u.fc = s.fc ∧ u.vm.localPort = none ∧
        u.vm.holder = if s.vm.holder = .context then .none else s.vm.holder) ∧
      Notices [⟨.voice, .ctx c, [.ended]⟩] s u ∧
      u = { s with vp := u.vp, store := u.store, vm := u.vm, su := u.su, fc := u.fc, pc := u.pc }
    ((s.vp.get c).ended = true → 60 * (s.vp.get c).held.length ≤ (s.vp.get c).pos →
      ∃ u, Follows (.playbackEnd c) s u ∧ ended .finished u) ∧
    (∀ h : CmdHead, Takes h (.stop (some c)) s → (∀ l, c = ctxOf l → (s.lc.get l).controller = .port h.port) →
      (s.vm.holder ≠ .context ∨ s.vm.localPort ≠ some (otherPort h.port) ∨ c ≠ .loc) →
      ∃ u, Does (.stop h (some c)) h .ok s u ∧ ended .stopped u)) ∧
  ∀ (h : CmdHead) (c : CtxId) (s : State), Takes h (.stop (some c)) s → (s.vp.get c).activity = .idle →
    (∀ l, c = ctxOf l → (s.lc.get l).controller = .port h.port ∧ s.vm.pendingRecord.get l = none) →
    (s.vm.localPort ≠ some (otherPort h.port) ∨ c ≠ .loc) → Does (.stop h (some c)) h .wrongState s s

/-- PLAY, RECORD, CONNECT LOCAL and SET ACCESS CODE (R113, R120 to R123). PLAY of a voice entry being written or complete, on LOCAL or on a line in VOICE or
seized, opens a handle at the block of the start position and starts the context; RECORD on LOCAL makes an entry in the lowest FREE slot and
starts recording into it, on a line with a beep it sends the beep first; CONNECT LOCAL joins a line in VOICE or seized to the desk, whose
screening gives way, and undoes it; the code takes four digits or none.
Where the spec leaves a choice it is the model's, of logs 4, 12 and 56. -/
def Obligations.PortOperationsBegin : Prop :=
  (∀ (h : CmdHead) (n : Fin 128) (start : Nat) (s : State), Takes h (.play (some .loc) n.val start) s →
    let e := s.store.dir[n]
    let v := s.vp.loc
    (e.state = .free ∨ e.state = .deletePending → Does (.play h (some .loc) n.val start) h .notFound s s) ∧
    (e.state = .writing ∨ e.state = .complete → e.kind.isVoice = false → Does (.play h (some .loc) n.val start) h .badArgument s s) ∧
    (e.state = .writing ∨ e.state = .complete → e.kind.isVoice = true →
      v.activity = .recording ∨ (∃ l, s.vm.holder = .bridge l) ∨ (s.vm.holder = .context ∧ s.vm.localPort = some (otherPort h.port)) →
        Does (.play h (some .loc) n.val start) h .busy s s)) ∧
  (∀ (h : CmdHead) (c : CtxId) (n : Fin 128) (start : Nat) (s : State), Takes h (.play (some c) n.val start) s →
    let e := s.store.dir[n]
    let v := s.vp.get c
    let at' := e.seekTo start
    e.kind.isVoice = true → e.state = .writing ∨ (e.state = .complete ∧ at' < e.length) → v.activity = .idle →
    s.store.handle? (playHolder c) = none → (c = .loc → (∀ l, s.vm.holder ≠ .bridge l) ∧ s.vm.holder ≠ .context) →
    (∀ l, c = ctxOf l → (s.lc.get l).controller = .port h.port ∧ s.vm.pendingRecord.get l = none ∧
      ((s.lc.get l).state = .voice ∨ ((s.lc.get l).state = .seized ∧ (s.lc.get l).purpose = .none))) →
    ∃ u, Does (.play h (some c) n.val start) h .accepted s u ∧
      u.store = { s.store with handles := s.store.handles ++ [⟨playHolder c, n, false, at'⟩] } ∧
      u.vp = s.vp.set c
        { VoiceCtx.idle v.settings with
          activity := .playing, format := e.format.getD ⟨v.settings.code, v.settings.rate, none⟩, entry := some n,
          holder := some (playHolder c), startClock := clockOfCtx c s,
          other := if e.committed ≤ at' then ⟨[], none, 0, 0⟩
            else match blockAt e.blocks 0 0 at' with
              | some b => ⟨[], some b.2.num, b.2.samples, 0⟩
              | none => ⟨[], none, 0, 0⟩ } ∧
      u.vm.report = s.vm.report.set c ⟨.play, some h.port, some n, 0, none, none, none, false⟩ ∧
      (c = .loc → u = { s with store := u.store, vp := u.vp, vm := u.vm, pc := u.pc } ∧
        u.vm = { s.vm with holder := .context, localPort := some h.port, report := u.vm.report } ∧
        Notices [⟨.voice, .ctx .loc, [.started]⟩] s u) ∧
      ∀ l, c = ctxOf l → u.vm = { s.vm with report := u.vm.report } ∧ UnitAsked l .voice s u ∧
        (u.lc.get l).state = .voice ∧ (u.lc.get l).purpose = (if (s.lc.get l).state = .voice then (s.lc.get l).purpose else .voice) ∧
        (u.lc.get l).hook = ((s.lc.get l).hook || (s.lc.get l).state == .seized) ∧
        Notices ((if (s.lc.get l).state = .seized then [flagNotice l .state] else []) ++ [⟨.voice, .ctx c, [.started]⟩]) s u ∧
        ∀ k, k ≠ l → u.lc.get k = s.lc.get k ∧ u.su.get k = s.su.get k ∧ u.fc.get k = s.fc.get k) ∧
  (∀ (h : CmdHead) (a : RecordArgs) (l : LineId) (n : Fin 128) (m : Fin 5) (s : State), Takes h (.record a) s →
    a.target = some (ctxOf l) → a.beep = true → (a.kind = .absent ∨ a.kind = .val .voice) → a.mailbox.getD 0 = m.val →
    (s.vp.get (ctxOf l)).activity = .idle → (s.lc.get l).controller = .port h.port → (s.lc.get l).state = .voice →
    s.vm.pendingRecord.get l = none → s.store.reserve < s.store.free → s.store.dir[n].state = .free →
    (∀ k < n, s.store.dir[k].state ≠ .free) →
    ∃ u, Follows (.record h a) s (answered h .accepted (.entryNumber n.val) u) ∧ u.vm.pendingRecord.get l = some n ∧
      u.vm.signal.get l = .recordBeep ∧ (u.su.get l).mode = .voice ∧
      (u.su.get l).generation = some ⟨.beep, 500, 0, (s.su.get l).sampleClock⟩ ∧ (u.vp.get (ctxOf l)).activity = .idle ∧
      u.store.dir[n].state = .writing ∧ u.store.dir[n].kind = .voice ∧ u.store.dir[n].mailbox = some m ∧
      u.store.dir[n].source = .line l ∧ u.store.handles = s.store.handles ++ [⟨writeHolder (ctxOf l), n, true, 0⟩] ∧
      u.vm.report.get (ctxOf l) = ⟨.record, some h.port, some n, 0, none, none, none, false⟩) ∧
  (∀ (h : CmdHead) (a : RecordArgs) (n : Fin 128) (m : Fin 5) (s : State), Takes h (.record a) s → a.target = some .loc →
    a.beep = false → (a.kind = .absent ∨ a.kind = .val .voice) → a.mailbox.getD 0 = m.val →
    s.vp.loc.activity = .idle → (∀ l, s.vm.holder ≠ .bridge l) → s.vm.holder ≠ .context →
    (s.store.free ≤ s.store.reserve → Does (.record h a) h .noRoom s s) ∧
    (s.store.reserve < s.store.free → (∀ k : Fin 128, s.store.dir[k].state ≠ .free) → Does (.record h a) h .noRoom s s) ∧
    (s.store.reserve < s.store.free → s.store.dir[n].state = .free → (∀ k < n, s.store.dir[k].state ≠ .free) →
      let v := s.vp.loc.settings
      ∃ u, Follows (.record h a) s (answered h .accepted (.entryNumber n.val) u) ∧
        u.store = { s.store with
          seqCounter := s.store.seqCounter + 1, handles := s.store.handles ++ [⟨.localWrite, n, true, 0⟩],
          dir := s.store.dir.set n
            { seqNo := s.store.seqCounter, kind := .voice, state := .writing, mailbox := some m, source := .loc,
              stamp := if s.tod.isSet then some s.tod.time else none, caller := none, station := none,
              format := some ⟨v.code, v.rate, some v.dither⟩, length := 0, committed := 0, blocks := [], pageList := [], reviewed := false,
              truncated := false, guarded := false, stop := none, completed := false } } ∧
        u.vp = { s.vp with loc :=
          { VoiceCtx.idle v with
            activity := .recording, format := ⟨v.code, v.rate, some v.dither⟩, dither := v.dither, silenceTime := v.silenceTime,
            maxLength := v.maxLength, entry := some n, holder := some .localWrite } } ∧
        u.vm = { s.vm with holder := .context, localPort := some h.port,
                           report := s.vm.report.set .loc ⟨.record, some h.port, some n, 0, none, none, none, false⟩ } ∧
        u = { s with store := u.store, vp := u.vp, vm := u.vm, pc := u.pc })) ∧
  (∀ (h : CmdHead) (l : LineId) (k : Nat) (s : State), lineOfNat k = some l → (s.lc.get l).controller = .port h.port →
    let r := s.lc.get l
    (Takes h (.connectLocal k true) s → (s.vp.get (ctxOf l)).activity = .idle →
      r.state = .voice ∨ (r.state = .seized ∧ r.purpose = .none) →
      (s.vm.holder = .context ∨ (∃ j, s.vm.holder = .bridge j) → Does (.connectLocal h k true) h .busy s s) ∧
      (s.vm.holder = .none ∨ (∃ j, s.vm.holder = .screen j) →
        (s.vm.pendingRecord.get l = none → ∃ u, Does (.connectLocal h k true) h .ok s u ∧
          LineOnly l { s with vm := { s.vm with holder := .bridge l, micOut := 0 } } u ∧ UnitAsked l .voice s u ∧ Shows l [.state] s u ∧
          u.lc.get l = { r with state := .talk, purpose := .talk, hook := true, faultTimer := .stopped,
                                changes := (u.lc.get l).changes }) ∧
        (∀ n : Fin 128, s.vm.pendingRecord.get l = some n → ∃ u, Does (.connectLocal h k true) h .ok s u ∧
          u.vm.pendingRecord.get l = none ∧ u.vm.holder = .bridge l ∧ (u.lc.get l).state = .talk ∧
          (u.vm.report.get (ctxOf l)).stop = some .stopped ∧ (u.vm.report.get (ctxOf l)).kept = some false ∧
          (u.store.dir[n].state = .free ∨ u.store.dir[n].state = .deletePending)))) ∧
    (Takes h (.connectLocal k false) s →
      (r.state = .talk → ∃ u, Does (.connectLocal h k false) h .ok s u ∧
        LineOnly l { s with vm := unbridged l s.vm } u ∧
        UnitAsked l .quiet s u ∧ Shows l [.state] s u ∧
        u.lc.get l = { r with state := .voice, purpose := .voice, hook := true, faultTimer := .stopped,
                              changes := (u.lc.get l).changes }) ∧
      (r.state ≠ .talk → Does (.connectLocal h k false) h .wrongState s s))) ∧
  ∀ (h : CmdHead) (s : State),
    (∀ a b c d : Fin 10, Takes h (.setAccessCode (.digits a b c d)) s → exec (.setAccessCode h (.digits a b c d)) s =
      .next (answered h .ok .none { s with vm := { s.vm with accessCode := some [a, b, c, d] } })) ∧
    (Takes h (.setAccessCode .none) s → exec (.setAccessCode h .none) s =
      .next (answered h .ok .none { s with vm := { s.vm with accessCode := none } })) ∧
    (Takes h (.setAccessCode .bad) s → OnlyAnswers (.setAccessCode h .bad) h .badArgument .none s)

namespace Sys2Proof.Claims

/-- `s` with a line's session replaced. -/
def withSession (l : LineId) (r : Session) (s : State) : State := { s with vm := { s.vm with session := s.vm.session.set l r } }

/-- A beep of 500 ms is being sent on a line for a purpose (R37, R116, R127). -/
def Beeping (l : LineId) (g : Signal) (s u : State) : Prop :=
  u.vm.signal.get l = g ∧ (u.su.get l).generation = some ⟨.beep, 500, 0, (s.su.get l).sampleClock⟩ ∧ (u.su.get l).mode = .voice

/-- The session has ended and its line clears; the other line's session is as it was (R130). -/
def SessionCleared (l : LineId) (s u : State) : Prop :=
  (u.lc.get l).state = .clearing ∧ (u.lc.get l).hook = false ∧ u.vm.session.get l = .none (s.vm.session.get l).mailbox ∧
    u.vm.signal.get l = .none ∧ (u.su.get l).mode = .quiet ∧ ∀ k, k ≠ l → u.vm.session.get k = s.vm.session.get k

/-- An item of the play list is still the entry it was made for (R128). -/
def Listed (i : Item) (st : Store) : Prop :=
  st.dir[i.entry].state = .complete ∧ st.dir[i.entry].kind = .voice ∧ st.dir[i.entry].seqNo = i.seqNo

/-- The session plays item `i`, the items `rest` being offered after it (R128): the handle is at position 0 and the key timer stands. -/
structure PlaysItem (l : LineId) (i : Item) (rest : List Item) (s u : State) : Prop where
  session : (u.vm.session.get l).phase = .playing ∧ (u.vm.session.get l).cursor = some i ∧ (u.vm.session.get l).offered = rest ∧
    (u.vm.session.get l).keyTimer = false ∧ (u.vm.session.get l).playList = (s.vm.session.get l).playList
  handle : u.store.handle? (.linePlay l) = some ⟨.linePlay l, i.entry, false, 0⟩
  context : (u.vp.get (ctxOf l)).activity = .playing ∧ (u.vp.get (ctxOf l)).entry = some i.entry ∧
    (u.vp.get (ctxOf l)).holder = some (.linePlay l)
  report : u.vm.report.get (ctxOf l) = ⟨.retrieval, none, some i.entry, 0, none, none, none, false⟩

/-- The session is back in the menu with nothing offered (R128, R129). -/
def InMenu (l : LineId) (u : State) : Prop :=
  (u.vm.session.get l).phase = .menu ∧ (u.vm.session.get l).keyTimer = true ∧ (u.vm.session.get l).cursor = none ∧
    (u.vm.session.get l).offered = [] ∧ (u.vp.get (ctxOf l)).activity = .idle

end Sys2Proof.Claims

/-- The answering machine's sessions (R115, R127 to R130). In ACCESS the fourth digit of the code opens the menu with its acceptance signal and the
play list of every VOICE entry in creation order; a wrong code or CODE_TIMER_EXPIRY starts afresh, at the third time ending the session with
a call note and clearing the line. Keys 1 and 2 select the new messages or all and play the first still listed, or send the refusal signal;
while an item plays key 3 goes to the next, key 4 plays it again, key 5 deletes it unless it is guarded or gone; key 6 begins a new
greeting; KEY_TIMER_EXPIRY and key 9 end the session without a note and clear the line; REFUSAL_SIGNAL_GAP_END asks for the second beep.
Where the spec leaves a choice it is the model's, of logs 4, 12 and 21. -/
def Obligations.CallersRetrieveByCode : Prop :=
  ∀ (l : LineId) (s : State), Runs s → (s.su.get l).mode = .voice →
    let c := ctxOf l
    let q := s.vm.session.get l
    let st := s.store
    let heard := { s with su := s.su.set l { s.su.get l with detector := .keypad, heardKeypad := true } }
    let key := fun d : Fin 10 => Instr.keypadDigit l (.digit d)
    let fresh := (s.su.get l).heardKeypad = false ∧ (s.lc.get l).state = .voice ∧ (s.lc.get l).entryRef = none
    let again := { q with wrongCodes := q.wrongCodes + 1, codeDigits := [], codeTimer := true }
    (q.phase = .access → fresh →
      (Follows (.keypadDigit l .star) s (withSession l { q with codeDigits := [], codeTimer := true } heard)) ∧
      ∀ d : Fin 10,
        let digits := q.codeDigits ++ [d]
        (digits.length < 4 → Follows (key d) s (withSession l { q with codeDigits := digits } heard)) ∧
        (digits.length = 4 → s.vm.accessCode = some digits → ∃ u, Follows (key d) s u ∧
          (u.vm.session.get l).phase = .menu ∧ (u.vm.session.get l).keyTimer = true ∧ (u.vm.session.get l).codeTimer = false ∧
          (u.vm.session.get l).selection = .none ∧ (u.vm.session.get l).cursor = none ∧ (u.vm.session.get l).offered = [] ∧
          ((u.vm.session.get l).playList.map fun i => i.entry).Nodup ∧
          (∀ i, i ∈ (u.vm.session.get l).playList ↔ Listed i st) ∧
          (∀ base : BitVec 32, (∀ n : Fin 128, (st.dir[n].seqNo - base).toNat < 2147483648) →
            (u.vm.session.get l).playList.Pairwise fun i j => (i.seqNo - base).toNat ≤ (j.seqNo - base).toNat) ∧
          Beeping l (.accept false) s u ∧
          Notices [⟨.voice, .ctx c, [.phase]⟩] s u ∧ u = { s with vm := u.vm, su := u.su, fc := u.fc, pc := u.pc }) ∧
        (digits.length = 4 → s.vm.accessCode ≠ some digits →
          (q.wrongCodes + 1 < 3 → Follows (key d) s (withSession l again heard)) ∧
          (3 ≤ q.wrongCodes + 1 → ∃ u, Follows (key d) s u ∧ SessionCleared l s u ∧ u.store = (askCallNote l s).store))) ∧
    (q.phase = .access → q.codeTimer = true →
      (q.wrongCodes + 1 < 3 → Follows (.codeTimerExpiry l) s (withSession l again s)) ∧
      (3 ≤ q.wrongCodes + 1 → (s.lc.get l).state = .voice → (s.lc.get l).entryRef = none →
        ∃ u, Follows (.codeTimerExpiry l) s u ∧ SessionCleared l s u ∧ u.store = (askCallNote l s).store)) ∧
    (q.phase ≠ .access ∨ q.codeTimer = false → Follows (.codeTimerExpiry l) s s) ∧
    (q.phase = .menu → (s.lc.get l).state = .voice → (s.lc.get l).entryRef = none → q.keyTimer = true →
      ∃ u, Follows (.keyTimerExpiry l) s u ∧ SessionCleared l s u ∧ u.store.seqCounter = st.seqCounter) ∧
    (q.phase = .menu ∨ q.phase = .playing → fresh →
      ∃ u, Follows (key 9) s u ∧ SessionCleared l s u ∧ u.store.seqCounter = st.seqCounter) ∧
    (q.phase = .menu → q.keyTimer = true → fresh → s.vm.signal.get l = .none → (s.vp.get c).activity = .idle →
      st.handle? (.linePlay l) = none →
      (∀ d : Fin 10, d = 0 ∨ d = 3 ∨ d = 4 ∨ d = 5 ∨ d = 7 ∨ d = 8 → Follows (key d) s heard) ∧
      (∀ new : Bool,
        let d : Fin 10 := if new then 1 else 2
        let fits := fun i : Item => Listed i st ∧ (new = true → st.dir[i.entry].reviewed = false)
        ((∀ i ∈ q.playList, ¬ fits i) → ∃ u, Follows (key d) s u ∧ InMenu l u ∧ Beeping l (.refuseFirst false) s u ∧ u.store = st ∧
          (u.vm.session.get l).selection = if new then .new else .all) ∧
        ∀ pre i post, q.playList = pre ++ i :: post → (∀ j ∈ pre, ¬ fits j) → fits i → ∃ u rest, Follows (key d) s u ∧
          PlaysItem l i rest s u ∧ (u.vm.session.get l).selection = (if new then .new else .all) ∧
          (new = false → rest = post) ∧ (new = true → rest.Sublist post ∧ ∀ j ∈ post, j ∈ rest ↔ fits j))) ∧
    (∀ (i : Item) (x : Handle), q.phase = .playing → q.cursor = some i → fresh → s.vm.signal.get l = .none →
      (s.vp.get c).activity = .playing → st.handle? (.linePlay l) = some x → st.dir[x.entry].pageList = [] →
      ((∀ j ∈ q.offered, ¬ Listed j st) → ∃ u, Follows (key 3) s u ∧ InMenu l u ∧ Beeping l (.accept false) s u) ∧
      (∀ pre j post, q.offered = pre ++ j :: post → (∀ k ∈ pre, ¬ Listed k st) → Listed j st →
        ∃ u, Follows (key 3) s u ∧ PlaysItem l j post s u) ∧
      (∃ u, Follows (key 4) s u ∧ u.vm.session.get l = q ∧ u.store.handle? (.linePlay l) = some { x with pos := 0 } ∧
        (u.vp.get c).activity = .playing ∧ (u.vp.get c).entry = some x.entry ∧ (u.vp.get c).held = []) ∧
      (Listed i st → st.dir[i.entry].guarded = false → st.dir[i.entry].pageList = [] → (∀ k : Fin 8, s.queue[k].state ≠ .waiting) → ∃ u, Follows (key 5) s u ∧
        (u.store.dir[i.entry].state = .free ∨ u.store.dir[i.entry].state = .deletePending) ∧
        (∀ n : Fin 128, n ≠ i.entry → st.dir[n].state = .complete → u.store.dir[n] = st.dir[n]) ∧
        Beeping l (.accept true) s u ∧ u.vm.session.get l = q ∧ (u.vp.get c).activity = .idle) ∧
      (¬ Listed i st ∨ st.dir[i.entry].guarded = true → ∃ u, Follows (key 5) s u ∧
        (∀ n : Fin 128, st.dir[n].state = .complete → u.store.dir[n] = st.dir[n]) ∧
        Beeping l (.refuseFirst true) s u ∧ u.vm.session.get l = q ∧ (u.vp.get c).activity = .idle)) ∧
    (q.phase = .menu ∨ q.phase = .playing → fresh → s.vm.signal.get l = .none → (s.vp.get c).activity = .idle →
      st.handle? (.linePlay l) = none →
      let room := (∃ n : Fin 128, st.dir[n].state = .free) ∧ st.reserve < st.freeList.length
      ∃ u, Follows (key 6) s u ∧ u.store = st ∧
        (room → (u.vm.session.get l).phase = .newGreeting ∧ (u.vm.session.get l).keyTimer = false ∧ Beeping l .greetingBeep s u) ∧
        (¬ room → (u.vm.session.get l).phase = .menu ∧ (u.vm.session.get l).keyTimer = true ∧ Beeping l (.refuseFirst false) s u)) ∧
    (q.phase ≠ .menu ∨ q.keyTimer = false → Follows (.keyTimerExpiry l) s s) ∧
    (∀ b, s.vm.signal.get l = .refuseGap b → ∃ u, Follows (.refusalSignalGapEnd l) s u ∧
      u.vm = { s.vm with signal := s.vm.signal.set l (.refuseSecond b) } ∧
      u.su = s.su.set l { s.su.get l with
        generation := some ⟨.beep, 500, 0, (s.su.get l).sampleClock⟩, lastTone := (s.su.get l).cutTone } ∧
      u = { s with vm := u.vm, su := u.su, fc := u.fc }) ∧
    (s.vm.signal.get l = .none → Follows (.refusalSignalGapEnd l) s s)
/-! ## Frame Channels and fax sessions -/

namespace Sys2Proof.Claims

/-- `s` with a line's Frame Channel replaced. -/
def withChan (l : LineId) (c : Channel) (s : State) : State := { s with fc := s.fc.set l c }

/-- A line's channel is bound and its unit delivers the bits it demodulates to it (R43, R133). -/
def Delivers (l : LineId) (s : State) : Prop :=
  ((s.su.get l).mode = .data ∨ (s.su.get l).mode = .faxSlow ∨ (s.su.get l).mode = .faxFast) ∧ (s.su.get l).training = false ∧
    (s.su.get l).carrier = true ∧ (s.su.get l).plain = false ∧ (s.fc.get l).owner ≠ .none

/-- A channel with a record completed: it joins the receive queue and its count, or, four waiting, is lost (R143). -/
def completed (r : RxRecord) (c : Channel) : Channel :=
  if c.rxQueue.length < 4 then
    { c with rxQueue := c.rxQueue ++ [r], counts := countRx r.verdict c.counts, rxAddress := none, rxTooLong := false }
  else { c with counts := { c.counts with frameLost := bump c.counts.frameLost }, reports := c.reports ++ [.lost],
                rxAddress := none, rxTooLong := false }

/-- What a fax session's step can change: the session's own records, its line's unit and channel, and the ports' notices. -/
structure FaxFrame (l : LineId) (s u : State) : Prop where
  rest : u = { s with fx := u.fx, fw := u.fw, su := u.su, fc := u.fc, pc := u.pc }
  other : ∀ k, k ≠ l → u.fx.get k = s.fx.get k ∧ u.fw.get k = s.fw.get k ∧ u.su.get k = s.su.get k ∧ u.fc.get k = s.fc.get k

/-- A receiver's session has been opened on a line that has been handed to it (R148): the channel is bound with the exact filter and
broadcast address, and the answer tone is being sent at FAX-SLOW. -/
structure ReceiverOpened (l : LineId) (s u : State) : Prop where
  line : (u.lc.get l).state = .fax ∧ (u.lc.get l).purpose = .fax ∧ (u.lc.get l).hook = true ∧
    (u.lc.get l).controller = (s.lc.get l).controller
  session : (u.fx.get l).role = .receiver ∧ (u.fx.get l).state = none ∧ (u.fx.get l).document = none ∧ (u.fx.get l).kept = 0 ∧
    (u.fw.get l).settings = s.fxSet.get l ∧ (u.fw.get l).step = .answerTone
  unit : (u.su.get l).mode = .faxSlow ∧ (u.su.get l).generation = some ⟨.answerTone, 3000, 0, (s.su.get l).sampleClock⟩ ∧
    (u.su.get l).lossTime = (s.fxSet.get l).lossTime
  channel : (u.fc.get l).owner = .fx ∧ (u.fc.get l).ownAddress = 0xFF ∧ (u.fc.get l).filter = .exact ∧ (u.fc.get l).limit = 300 ∧
    (u.fc.get l).counts = .zero ∧ (u.fc.get l).txQueue = [] ∧ (u.fc.get l).rxQueue = []
  frame : u = { s with lc := u.lc, su := u.su, fc := u.fc, fx := u.fx, fw := u.fw, pc := u.pc }
  other : ∀ k, k ≠ l → u.lc.get k = s.lc.get k ∧ u.su.get k = s.su.get k ∧ u.fc.get k = s.fc.get k ∧ u.fx.get k = s.fx.get k ∧
    u.fw.get k = s.fw.get k

end Sys2Proof.Claims

namespace Sys2Proof.Claims

/-- The reports on several records, removed with one verdict, in queue order (R136). -/
def reported (v : TxVerdict) (rs : List FrameRec) : List ChanReport := rs.map fun r => .tx r.ref v

/-- The channel's counts, but for the count of discarded records. -/
def SameCounts (a b : ChanCounts) : Prop := a = { b with discarded := a.discarded }

end Sys2Proof.Claims

/-- FRAME_SENT, UNDERRUN, TRANSPARENT_DRY, FLAG_FOUND, FRAME_FIRST_BIT, ADDRESS_OCTET_RECEIVED, RECEIVE_LIMIT_EXCEEDED, FRAME_ABORT_RECEIVED and FRAME_RECEIVED
(R134, R137 to R144): the frame in progress goes out with its closing flag and is reported, and the next begun; an underrun sends an abort, and a frame
with all its octets cannot underrun; a dry transparent transmitter sends zeros and tells DRY once; the receiver goes from HUNT by flags, first
bits and addresses to the record it completes, GOOD, SHORT, ALIGN, BAD-CHECK, TOO-LONG or ABORTED. Bits that are not delivered change nothing.

An owner abort, a disable and the Signal Unit's pause and ready, as operations of the channel (R139, R140).
Where the spec leaves a choice it is the model's, of logs 4, 15, 24 and 51. -/
def Obligations.FramesCrossTheChannel : Prop :=
  (∀ c : Channel,
    let gone := fun (d : Channel) (rs : List FrameRec) =>
      d.reports = c.reports ++ reported .discarded rs ∧ SameCounts d.counts c.counts ∧
      (c.counts.discarded ≤ 65535 → d.counts.discarded = min 65535 (c.counts.discarded + rs.length))
    (c.txState = .off → c.ownerAbort = c ∧ c.disableTx = c ∧ c.pause = c ∧ c.ready = c) ∧
    (c.txState = .idle → c.ownerAbort = { c with wire := abortBits } ∧ c.pause = { c with txState := .held } ∧
      (c.txMode = .framed → c.disableTx = { c with txState := .off, nextTx := none })) ∧
    (c.txState = .sending → c.txMode = .framed →
      (c.ownerAbort.txState = .idle ∧ c.ownerAbort.txQueue = [] ∧ c.ownerAbort.wire = abortBits ∧ gone c.ownerAbort c.txQueue) ∧
      (c.disableTx.txState = .draining ∧ c.disableTx.txQueue = c.txQueue.take 1 ∧ c.disableTx.wire = c.wire ∧
        gone c.disableTx c.txQueue.tail) ∧
      ∀ r rs, c.txQueue = r :: rs → c.pause.txState = .held ∧ c.pause.txQueue = rs ∧
        c.pause.reports = c.reports ++ [.tx r.ref .sentAborted]) ∧
    (c.txState = .draining → c.nextTx = none →
      c.ownerAbort.txState = .off ∧ c.ownerAbort.txQueue = [] ∧ c.ownerAbort.wire = abortBits ∧ gone c.ownerAbort c.txQueue) ∧
    (c.txState = .held →
      (c.ownerAbort.txState = .idle ∧ c.ownerAbort.txQueue = [] ∧ c.ownerAbort.wire = c.wire ∧ gone c.ownerAbort c.txQueue) ∧
      (c.txMode = .framed → c.disableTx.txState = .off ∧ c.disableTx.txQueue = [] ∧ gone c.disableTx c.txQueue) ∧
      c.pause = c ∧ (c.txMode = .framed → c.ready = if c.txQueue = [] then { c with txState := .idle }
        else { c with txState := .sending, wire := flagBits }))) ∧
  ∀ (l : LineId) (s : State), Runs s →
    let c := s.fc.get l
    (∀ (r : FrameRec) (rs : List FrameRec), c.txMode = .framed → c.txQueue = r :: rs →
      (∀ bs, r.content = .octets bs → wireOf l r s = frameBits r.address bs) ∧
      (∀ f, r.content = .control f → wireOf l r s = frameBits r.address (Config.controlOctets f)) ∧
      (c.txState = .sending → Follows (.frameSent l) s (withChan l
        { c with txQueue := rs, txState := if rs = [] then .idle else .sending, wire := wireOf l r s ++ flagBits,
                 counts := { c.counts with sent := bump c.counts.sent }, reports := c.reports ++ [.tx r.ref .sent] } s)) ∧
      (c.txState = .sending → (∀ k n, r.content ≠ .page k n) → Follows (.underrun l) s s) ∧
      (c.txState = .sending → ∀ k n, r.content = .page k n → Follows (.underrun l) s (withChan l
        { c with txQueue := rs, txState := if rs = [] then .idle else .sending,
                 wire := abortBits ++ (if rs = [] then [] else flagBits),
                 counts := { c.counts with sentAborted := bump c.counts.sentAborted },
                 reports := c.reports ++ [.tx r.ref .sentAborted] } s)) ∧
      (c.txState = .draining → c.nextTx = none → Follows (.frameSent l) s (withChan l
        { c with txQueue := rs, txState := .off, dry := false, wire := wireOf l r s ++ flagBits,
                 counts := { c.counts with sent := bump c.counts.sent }, reports := c.reports ++ [.tx r.ref .sent] } s))) ∧
    (c.txQueue = [] ∨ c.txMode = .transparent → Follows (.frameSent l) s s ∧ Follows (.underrun l) s s) ∧
    (c.txMode = .transparent → c.txState = .sending → Follows (.transparentDry l) s (withChan l
      { c with dry := true, wire := List.replicate 8 false, reports := if c.dry then c.reports else c.reports ++ [.dry] } s)) ∧
    (c.txMode = .framed → Follows (.transparentDry l) s s) ∧
    (Delivers l s → c.rxMode = .framed →
      (c.rxState = .hunt → Follows (.flagFound l) s (withChan l { c with rxState := .sync } s)) ∧
      (c.rxState = .sync → Follows (.flagFound l) s s ∧
        Follows (.frameFirstBit l) s (withChan l { c with rxState := .frame, rxAddress := none, rxTooLong := false, rxLimit := c.limit } s) ∧
        Follows (.frameAbortReceived l) s (withChan l { c with rxState := .hunt } s)) ∧
      (c.rxState = .frame →
        (∀ a : Byte, c.rxAddress = none →
          let passes := match c.filter with
            | .off => True
            | .exact => a = c.ownAddress ∨ a = 0xFF
            | .upper => a.toNat / 16 = c.ownAddress.toNat / 16 ∨ a = 0xFF
          (passes → Follows (.addressOctetReceived l a) s (withChan l { c with rxAddress := some a } s)) ∧
          (¬ passes → Follows (.addressOctetReceived l a) s (withChan l { c with rxState := .discard } s))) ∧
        Follows (.receiveLimitExceeded l) s (withChan l { c with rxState := .discard, rxTooLong := true } s) ∧
        Follows (.frameAbortReceived l) s
          (withChan l { completed ⟨c.rxAddress, .octets [], .aborted⟩ c with rxState := .hunt } s) ∧
        (∀ (a : Byte) (bs : List Byte), c.rxAddress = some a → bs.length + 3 ≤ c.rxLimit →
          Follows (.frameReceived l (.bits (frameBits a bs))) s
            (withChan l { completed ⟨some a, .octets bs, .good⟩ c with rxState := .sync } s)) ∧
        (∀ raw : List Bool, c.rxAddress.isSome →
          let bits := destuff raw
          let os := bitsOctets bits
          let body := os.take (os.length - 2)
          let ends := fun r : RxRecord =>
            Follows (.frameReceived l (.bits raw)) s (withChan l { completed r c with rxState := .sync } s)
          (c.rxLimit < bits.length / 8 → ends ⟨os.head?, .octets [], .tooLong⟩) ∧
          (bits.length / 8 ≤ c.rxLimit →
            (bits.length < 24 → ends ⟨os.head?, .octets [], .short⟩) ∧
            (24 ≤ bits.length → bits.length % 8 ≠ 0 → ends ⟨os.head?, .octets [], .align⟩) ∧
            (24 ≤ bits.length → bits.length % 8 = 0 → checkOctets body ≠ os.drop (os.length - 2) →
              ends ⟨os.head?, .octets body.tail, .badCheck⟩))) ∧
        (∀ f : ControlFrame, (s.su.get l).mode = .faxSlow → c.owner = .fx → Follows (.frameReceived l (.control f)) s
          (withChan l { completed ⟨some 0xFF, .control f, .good⟩ c with rxState := .sync } s))) ∧
      (c.rxState = .discard → c.rxTooLong = true → Follows (.flagFound l) s
        (withChan l { completed ⟨c.rxAddress, .octets [], .tooLong⟩ c with rxState := .sync } s)) ∧
      (c.rxState = .off → Follows (.flagFound l) s s ∧ Follows (.frameFirstBit l) s s ∧ Follows (.frameAbortReceived l) s s)) ∧
    ((s.su.get l).carrier = false ∨ (s.su.get l).plain = true → ∀ f o, Follows (.flagFound l) s s ∧ Follows (.frameFirstBit l) s s ∧
      Follows (.frameAbortReceived l) s s ∧ Follows (.receiveLimitExceeded l) s s ∧ Follows (.addressOctetReceived l o) s s ∧
      Follows (.frameReceived l f) s s ∧ Follows (.transparentOctetReceived l o) s s)

/-- FAX RECEIVE, ANSWER with purpose FAX, FAX ABORT, FAX STATUS and SET FAX (R147, R148, R167 to R169): a line turned to FAX, or answered for it, is
handed to a receiver that sends its answer tone; FAX ABORT sends END; the settings named change, clamped or from their lists.
Where the spec leaves a choice it is the model's, of logs 15 and 17. -/
def Obligations.FaxSessionsObeyThePort : Prop :=
  ∀ (h : CmdHead) (l : LineId) (n : Nat) (s : State), lineOfNat n = some l →
    let r := s.lc.get l
    (r.controller = .port h.port → s.store.freeEntry?.isSome → s.store.freePage?.isSome → (s.fc.get l).owner = .none →
      (Takes h (.faxReceive n) s → r.state = .voice → (s.vp.get (ctxOf l)).activity = .idle → s.vm.pendingRecord.get l = none →
        ∃ u, Does (.faxReceive h n) h .accepted s u ∧ ReceiverOpened l s u) ∧
      (Takes h (.answer n (some .fax)) s → r.state = .ringing → r.window = .closed →
        ∃ u, Does (.answer h n (some .fax)) h .accepted s u ∧ ReceiverOpened l s u ∧ (u.lc.get l).ringCount = 0)) ∧
    (r.controller = .port h.port → Takes h (.faxReceive n) s →
      (r.state ≠ .voice → (r.state ≠ .seized ∨ r.purpose ≠ .none) → Does (.faxReceive h n) h .wrongState s s) ∧
      (r.state = .voice → (∀ k : Fin 128, s.store.dir[k].state ≠ .free) → Does (.faxReceive h n) h .noRoom s s)) ∧
    (Takes h (.faxAbort n) s →
      (r.controller = .port (otherPort h.port) → Does (.faxAbort h n) h .lineHeld s s) ∧
      (r.controller ≠ .port (otherPort h.port) → r.state ≠ .fax → Does (.faxAbort h n) h .wrongState s s) ∧
      (r.controller ≠ .port (otherPort h.port) → r.state = .fax → ∃ u, Does (.faxAbort h n) h .ok s u ∧ FaxFrame l s u ∧
        (u.su.get l).mode = .faxSlow ∧ (u.su.get l).generation = none ∧ (u.fx.get l).lastFrame = some .endSession ∧
        (u.fw.get l).after = .finish .aborted ∧ (u.fc.get l).txMode = .framed ∧
        ((s.fc.get l).txMode = .framed → (s.fc.get l).txQueue = [] → (s.fc.get l).txState = .idle ∨ (s.fc.get l).txState = .off →
          ControlSending l .endSession (.finish .aborted) s u))) ∧
    (Takes h (.faxStatus n) s → ∃ v : FaxView, OnlyAnswers (.faxStatus h n) h .ok (.fax v) s ∧
      let x := s.fx.get l
      v.role = x.role ∧ v.state = x.state ∧ v.choice = x.choice ∧ v.offer = x.offer ∧ v.farStation = x.farStation ∧
      v.document = x.document ∧ v.page = x.page ∧ v.kept = x.kept ∧ v.received = x.received ∧ v.badLines = x.badLines ∧
      v.longestBad = x.longestBad ∧ v.verdict = (s.fw.get l).lastVerdict ∧ v.block = x.block ∧ v.round = x.round ∧
      v.missing = x.missing ∧ v.error = x.error ∧ v.outcome = x.outcome ∧ v.rate = (s.su.get l).rate ∧
      v.quality = (s.su.get l).quality ∧ v.counts = (s.fc.get l).counts) ∧
    ∀ a : FaxArgs, Takes h (.setFax n a) s →
      (r.controller = .port (otherPort h.port) → OnlyAnswers (.setFax h n a) h .lineHeld .none s) ∧
      (r.controller ≠ .port (otherPort h.port) →
        (∀ t, a.minLineTime = some t → t ≠ 0 → t ≠ 5 → t ≠ 10 → t ≠ 20 → t ≠ 40 →
          OnlyAnswers (.setFax h n a) h .badArgument .none s) ∧
        (faxBad a = false → ∃ v : FaxSettings, let o := s.fxSet.get l
          exec (.setFax h n a) s = .next (answered h .ok (.faxSettings v) { s with fxSet := s.fxSet.set l v }) ∧
          (v.maxRate.val = match a.maxRate with | some k => min 5 k | none => o.maxRate.val) ∧
          (v.fine = match a.fine with | .val k => k | _ => o.fine) ∧
          (v.corrected = match a.corrected with | .val k => k | _ => o.corrected) ∧
          (v.minLineTime = match a.minLineTime with | some k => k | none => o.minLineTime) ∧
          (v.tolerance = match a.tolerance with | some k => max 1 (min 20 k) | none => o.tolerance) ∧
          (v.runLimit = match a.runLimit with | some k => max 1 (min 64 k) | none => o.runLimit) ∧
          (v.progress = match a.progress with | some k => min 1023 k | none => o.progress) ∧
          (v.station = match a.station with | .val k => k | _ => o.station) ∧
          (v.lossTime = match a.lossTime with | some k => max 500 (min 5000 k) | none => o.lossTime)))

/-- The fax procedure's events (R148 to R156, R160, R167): the answer tone's end sends the OFFER; FAX_RESPONSE_TIMEOUT sends the last frame again, and after three
repeats END; CHECK_ZEROS_END has sent its zeros and waits for the result; CHECK_BITS_TIMEOUT and too many ones fail the check; PAGE_DATA_SENT shows the
filled lines of the page on the wire and sends PAGE-DONE; a disturbance
spoils the line being received; a lost carrier ends the session with NO-CARRIER.
Where the spec leaves a choice it is the model's, of logs 4, 5, 15 and 49. -/
def Obligations.FaxProcedureAdvances : Prop :=
  ∀ (l : LineId) (s : State), Runs s →
    let x := s.fx.get l
    let w := s.fw.get l
    let ready := (s.fc.get l).txMode = .framed ∧ (s.fc.get l).txState = .off ∧ (s.fc.get l).txQueue = []
    (w.step = .answerTone → (∃ g, (s.su.get l).generation = some g ∧ g.tone = .answerTone) → ready → ∃ u, Follows (.generationDone l) s u ∧
      FaxFrame l s u ∧ (u.fx.get l).state = some .rOffer ∧ (u.fc.get l).rxState ≠ .off ∧
      ControlSending l (.offer ⟨w.settings.maxRate, w.settings.fine, w.settings.corrected, w.settings.minLineTime, true,
        w.settings.station⟩) .wait s u) ∧
    (x.timer = true → ready →
      (∀ f, x.repeats < 3 → x.lastFrame = some f → ∃ u, Follows (.faxResponseTimeout l) s u ∧ FaxFrame l s u ∧
        ControlSending l f w.after s u ∧ (u.fx.get l).repeats = x.repeats + 1 ∧ (u.fx.get l).state = x.state) ∧
      (3 ≤ x.repeats → ∃ u, Follows (.faxResponseTimeout l) s u ∧ FaxFrame l s u ∧
        ControlSending l .endSession (.finish .noResponse) s u)) ∧
    (x.timer = false → Follows (.faxResponseTimeout l) s s) ∧
    (x.role = .sender → w.step = .checkZeros → ∃ u, Follows (.checkZerosEnd l) s u ∧ FaxFrame l s u ∧
      (u.fx.get l).state = some .sCheck ∧ (u.fx.get l).timer = true ∧ (u.su.get l).mode = .faxSlow ∧ (u.fw.get l).step = .slow ∧
      (u.fc.get l).rxMode = .framed ∧
      ((s.fc.get l).txMode = .transparent → (u.fc.get l).txState = .off ∧
        ∀ c : Choice, x.choice = some c → (u.fc.get l).wire = List.replicate (3600 * (c.rate.val + 1)) false)) ∧
    (w.step ≠ .checkZeros → Follows (.checkZerosEnd l) s s) ∧
    (∀ b e, x.role = .receiver → w.step = .checkBits b e → (s.fc.get l).txState = .off → (s.fc.get l).txQueue = [] →
      (∃ u, Follows (.checkBitsTimeout l) s u ∧ FaxFrame l s u ∧ (u.fx.get l).state = some .rVerdict ∧
        (u.su.get l).mode = .faxSlow ∧ ControlSending l .checkFail .wait s u) ∧
      ∀ (c : Choice) (o : Byte), x.choice = some c → Delivers l s → (s.fc.get l).rxMode = .transparent →
        (s.fc.get l).rxState = .frame →
        let total := 3600 * (c.rate.val + 1)
        let ones := fun k => ((octetBits o).take k).countP id
        (b + 8 < total → Follows (.transparentOctetReceived l o) s
          { s with fw := s.fw.set l { w with step := .checkBits (b + 8) (e + ones 8) } }) ∧
        (b < total → total ≤ b + 8 → ∃ u, Follows (.transparentOctetReceived l o) s u ∧ FaxFrame l s u ∧
          (u.su.get l).mode = .faxSlow ∧
          (total / 1000 < e + ones (total - b) → (u.fx.get l).state = some .rVerdict ∧ ControlSending l .checkFail .wait s u) ∧
          (e + ones (total - b) ≤ total / 1000 →
            (c.corrected = false → (u.fx.get l).state = some .rPage ∧ ControlSending l .checkOk .page s u) ∧
            (c.corrected = true → (u.fx.get l).state = some .rBlock ∧ ControlSending l .checkOk .block s u)))) ∧
    ((∀ b e, w.step ≠ .checkBits b e) → Follows (.checkBitsTimeout l) s s) ∧
    (∀ n, x.role = .sender → w.step = .pageData → x.document = some n → s.store.dir[n].pageList.length ≤ x.page →
      (s.lc.get l).entryRef = none → (s.fc.get l).txState = .off → (s.fc.get l).txQueue = [] → ∃ u,
        Follows (.pageDataSent l) s u ∧ FaxFrame l s u ∧ (u.fx.get l).state = some .sAwaitVerdict ∧
        (u.su.get l).mode = .faxSlow ∧ ControlSending l (.pageDone .last) .wait s u ∧
        ∀ (c : Choice) (k : Fin 256), x.choice = some c → s.store.dir[n].pageList[x.page - 1]? = some k →
          (u.fc.get l).wire = octetsBits (pageOctets (ceilDiv (2400 * (c.rate.val + 1) * c.minLineTime) 8000)
            (readContent s.store.dir[n].blocks s.store.pages[k].start s.store.pages[k].byteLength s.store.dram)) ++ flagBits) ∧
    (w.step ≠ .pageData → Follows (.pageDataSent l) s s) ∧
    (x.role = .receiver → w.step = .pageData → Delivers l s → (s.su.get l).mode = .faxFast →
      Follows (.disturbance l) s { s with fw := s.fw.set l { w with lineSpoiled := true } }) ∧
    (x.role = .sender → (s.su.get l).lossTimer = true → (s.lc.get l).state = .fax → (s.lc.get l).entryRef = none →
      ∃ u, Follows (.carrierGone l) s u ∧ FaxEnds l .noCarrier s u)

namespace Sys2Proof.Claims

/-- The session's side has gone to FAX-FAST at a rate index, both ceilings at it, and trains (R151, R154, R162). -/
def TrainsAt (l : LineId) (i : Fin 6) (u : State) : Prop :=
  (u.su.get l).mode = .faxFast ∧ (u.su.get l).training = true ∧ (u.su.get l).ownCeiling = i ∧ (u.su.get l).peerCeiling = i

/-- The sender sends the page in progress (R160, R162): its lines, or its first block's first round with every frame of the block. -/
structure PageSending (l : LineId) (c : Choice) (p : PageEntry) (u : State) : Prop where
  unit : TrainsAt l c.rate u
  lines : c.corrected = false → (u.fx.get l).state = some .sPage ∧ (u.fw.get l).step = .pageTraining
  blocks : c.corrected = true → (u.fx.get l).state = some .sBlock ∧ (u.fw.get l).step = .blockTraining ∧ (u.fx.get l).block = 0 ∧
    (u.fx.get l).round = 1 ∧ (u.fw.get l).blockBase = 0 ∧ (u.fw.get l).roundEnds = 2 ∧
    (u.fw.get l).toSend = List.range (if p.byteLength = 0 then 1 else (min 16384 p.byteLength + 255) / 256)

/-- CHOOSE for page `k` of document `n` at a choice whose resolution is the page's, or END where the far side does not take that (R150, R161). -/
def PageChosen (l : LineId) (n : Fin 128) (k : Nat) (c : Choice) (o : Offer) (s u : State) : Prop :=
  (u.fx.get l).page = k ∧ ∀ p : Fin 256, s.store.dir[n].pageList[k - 1]? = some p →
    let r := s.store.pages[p].resolution
    (r = .standard ∨ o.fine = true → (u.fx.get l).state = some .sChoose ∧ (u.fx.get l).choice = some { c with resolution := r } ∧
      ControlAsked l (.choose { c with resolution := r } (s.fw.get l).settings.station) .check s u) ∧
    (r = .fine → o.fine = false → ControlAsked l .endSession (.finish .pageFailed) s u)

/-- A round of the block in progress begins with frames `ks` to send and the two round-end frames after them (R162). -/
def RoundBegins (l : LineId) (c : Choice) (block round base : Nat) (ks : List Nat) (u : State) : Prop :=
  TrainsAt l c.rate u ∧ (u.fx.get l).state = some .sBlock ∧ (u.fw.get l).step = .blockTraining ∧ (u.fx.get l).block = block ∧
    (u.fx.get l).round = round ∧ (u.fw.get l).blockBase = base ∧ (u.fw.get l).toSend = ks ∧ (u.fw.get l).roundEnds = 2

end Sys2Proof.Claims

/-- The frames a fax session takes from its channel. A control frame is taken as its state expects it (R149): the sender chooses by the OFFER
(R150), lowers the rate at CHECK-FAIL (R153), sends the page at CHECK-OK (R151, R160, R162), goes on by the page's answer (R161), and at BLOCK-STATUS
begins the next block, another round of the frames missing, a check at a lower rate, or ends (R162); the
receiver checks what a CHOOSE within its offer asks (R152), answers PAGE-DONE by the verdict (R159) and BLOCK-END with the frames missing
(R164), a repeat of either with what it answered before, and both with END when the session has turned STORE-FULL (R165); END ends the session
(R167). Frames not expected, and CHOOSE outside the offer, change nothing.

In a round a page frame goes to its place, and what goes wrong first is kept (R163). Of the bits of page data, a one after eleven zeros is a
marker: the first begins the page, one after data completes a line that is counted and stored, good or bad, and the sixth in a row without
data ends the page; other bits join the line (R154 to R157).

The model's choices: a page of no line has no page entry and keeps nothing (log 50), the LATE of a receiving client at four page frames (log 81), a missing
number beyond the block's frame count (log 82), the byte length of a page in progress (log 48), and the control frames' octets and serial numbers
(logs 15 and 58). -/
def Obligations.FaxFramesAreTaken : Prop :=
  (∀ (l : LineId) (k : Nat) (r : RxRecord) (rs : List RxRecord) (s : State), (s.fc.get l).owner = .fx → (s.fc.get l).reports = [] →
    (s.fc.get l).rxQueue = r :: rs →
    drainLine l (k + 1) s = drainLine l k (faxRecord l r { s with fc := s.fc.set l { s.fc.get l with rxQueue := rs } })) ∧
  (∀ (l : LineId) (s : State), (s.fw.get l).step = .slow → (∀ o, (s.fw.get l).after ≠ .finish o) →
    let x := s.fx.get l
    let w := s.fw.get l
    let take := fun f : ControlFrame => faxRecord l ⟨some 0xFF, .control f, .good⟩ s
    (∀ (o : Offer) (n : Fin 128), x.state = some .sWaitOffer → x.document = some n → ((take (.offer o)).fx.get l).offer = some o ∧
      ((take (.offer o)).fx.get l).farStation = o.station ∧
      (o.ready = false → ControlAsked l .endSession (.finish .pageFailed) s (take (.offer o))) ∧
      (o.ready = true → PageChosen l n 1
        ⟨if w.settings.maxRate ≤ o.maxRate then w.settings.maxRate else o.maxRate, .standard, w.settings.corrected && o.corrected,
          o.minLineTime⟩ o s (take (.offer o)))) ∧
    (∀ (c : Choice) (o : Offer) (n : Fin 128) (p : Fin 256), x.choice = some c → x.offer = some o → x.document = some n →
      (x.state = some .sCheck → w.resumeBlock = false → s.store.dir[n].pageList[x.page - 1]? = some p →
        PageSending l c s.store.pages[p] (take .checkOk)) ∧
      (x.state = some .sCheck →
        (∀ i : Fin 6, i.val + 1 = c.rate.val → (((take .checkFail).fx.get l).state = some .sChoose ∧
          ((take .checkFail).fx.get l).choice = some { c with rate := i } ∧
          ControlAsked l (.choose { c with rate := i } w.settings.station) .check s (take .checkFail))) ∧
        (c.rate = 0 → ControlAsked l .endSession (.finish .checkFailed) s (take .checkFail))) ∧
      (x.state = some .sAwaitVerdict →
        (PageChosen l n x.page c o s (take .pageResend) ∧ ((take .pageResend).fx.get l).resent = true) ∧
        (∀ f, f = .pageOk ∨ f = .pageRetrain →
          (w.pageEnd = .last → ((take f).fx.get l).state = some .sEnd ∧ ControlAsked l .endSession (.finish .done) s (take f)) ∧
          (w.pageEnd = .change ∨ (w.pageEnd = .more ∧ f = .pageRetrain) → PageChosen l n (x.page + 1) c o s (take f))) ∧
        (w.pageEnd = .more → s.store.dir[n].pageList[x.page]? = some p → PageSending l c s.store.pages[p] (take .pageOk) ∧
          ((take .pageOk).fx.get l).page = x.page + 1))) ∧
    (∀ (c : Choice) (n : Fin 128) (p : Fin 256) (b : Nat) (ks : List Nat), x.choice = some c → x.document = some n →
      s.store.dir[n].pageList[x.page - 1]? = some p →
      let t := take (.blockStatus b ks)
      let left := fun base => min 16384 (s.store.pages[p].byteLength - base)
      let frames := fun base => if left base = 0 then 1 else (left base + 255) / 256
      (x.state = some .sBlock → x.block ≠ b → t = s) ∧
      (x.state = some .sBlock → x.block = b →
        (ks = [] → left w.blockBase = 16384 → RoundBegins l c ((w.blockBase + 16384) / 16384 % 256) 1 (w.blockBase + 16384)
            (List.range (frames (w.blockBase + 16384))) t ∧ (t.fx.get l).lowered = false) ∧
        (ks = [] → left w.blockBase ≠ 16384 → ∃ e, ControlAsked l (.pageDone e) .wait s t ∧ (t.fx.get l).state = some .sAwaitVerdict ∧
          (t.fw.get l).pageEnd = e ∧ (e = .last ↔ s.store.dir[n].pageList.length ≤ x.page) ∧
          ∀ q, s.store.dir[n].pageList[x.page]? = some q → (e = .more ↔ s.store.pages[q].resolution = c.resolution)) ∧
        (ks ≠ [] → x.round < 4 → RoundBegins l c b (x.round + 1) w.blockBase
          ((List.range (frames w.blockBase)).filter fun k => decide (k ∈ ks)) t) ∧
        (ks ≠ [] → 4 ≤ x.round →
          (∀ i : Fin 6, i.val + 1 = c.rate.val → x.lowered = false →
            ControlAsked l (.choose { c with rate := i } w.settings.station) .check s t ∧ (t.fx.get l).state = some .sChoose ∧
            (t.fx.get l).choice = some { c with rate := i } ∧ (t.fx.get l).lowered = true ∧ (t.fx.get l).round = 0 ∧
            (t.fx.get l).block = b ∧ (t.fx.get l).missing = ks ∧ (t.fw.get l).resumeBlock = true ∧
            (t.fw.get l).blockBase = w.blockBase) ∧
          (c.rate = 0 ∨ x.lowered = true → ControlAsked l .endSession (.finish .pageFailed) s t))) ∧
      (x.state = some .sCheck → w.resumeBlock = true → RoundBegins l c x.block (x.round + 1) w.blockBase
        ((List.range (frames w.blockBase)).filter fun k => decide (k ∈ x.missing)) (take .checkOk))) ∧
    (∀ (c : Choice) (st : Option (List Byte)),
      x.state = some .rOffer ∨ x.state = some .rVerdict ∨ x.state = some .rPage ∨ x.state = some .rBlock →
      let t := w.settings
      let meets := c.rate ≤ t.maxRate ∧ (c.resolution = .fine → t.fine = true) ∧ (c.corrected = true → t.corrected = true) ∧
        t.minLineTime ≤ c.minLineTime
      (meets → ((take (.choose c st)).fx.get l).state = some .rCheck ∧ ((take (.choose c st)).fx.get l).choice = some c ∧
        (st.isSome → ((take (.choose c st)).fx.get l).farStation = st) ∧ ((take (.choose c st)).fx.get l).timer = false ∧
        ((take (.choose c st)).fw.get l).step = .checkTraining ∧ ((take (.choose c st)).fc.get l).rxMode = .transparent ∧
        TrainsAt l c.rate (take (.choose c st))) ∧
      (¬ meets → take (.choose c st) = s)) ∧
    (∀ e : PageEnd, x.state = some .rVerdict → w.storeFull = false → w.trained = true → w.waitingLine = none →
      let v := judgePage x.received x.badLines x.longestBad (s.fxSet.get l).tolerance (s.fxSet.get l).runLimit
      let t := take (.pageDone e)
      (v = .bad → x.resent = false → ControlAsked l .pageResend .wait s t ∧ (t.fx.get l).resent = true ∧
        (x.document.isSome → (t.fw.get l).pageEntry = none)) ∧
      (v = .good → e = .more → ControlAsked l .pageOk .page s t ∧ (t.fx.get l).state = some .rPage) ∧
      (v = .good → e = .change → ControlAsked l .pageOk .wait s t ∧ (t.fx.get l).state = some .rVerdict) ∧
      (v = .good → e = .last → ControlAsked l .pageOk .wait s t ∧ (t.fx.get l).state = some .rEnd) ∧
      (v = .poor ∨ (v = .bad ∧ x.resent = true) → ControlAsked l .pageRetrain .wait s t ∧
        (t.fx.get l).state = some (if e = .last then .rEnd else .rVerdict)) ∧
      (v ≠ .bad ∨ x.resent = true → w.pageEntry.isSome → x.document.isSome → (t.fx.get l).kept = x.kept + 1 ∧ (t.fx.get l).resent = false)) ∧
    (∀ b count : Nat, x.state = some .rBlock → w.storeFull = false → w.blockOpen = true → w.lastBlock ≠ some b → x.block = b →
      let t := take (.blockEnd b count)
      let missing := (List.range count).filter fun k =>
        match w.written.find? fun y => y.1 == k with
        | none => true
        | some y => decide (k + 1 < count ∧ y.2 < 256)
      (t.fx.get l).missing = missing ∧ (missing ≠ [] → ControlAsked l (.blockStatus b missing) .block s t ∧ (t.fx.get l).block = b) ∧
      ∀ k len n, missing = [] → count = k + 1 → w.written.find? (fun y => y.1 == k) = some (k, len) → x.document = some n →
        let last := count < 64 ∨ len < 256
        t.store.dir[n].committed = t.store.dir[n].length ∧ t.store.dir[n].length = w.blockBase + 256 * k + len ∧
        (t.fw.get l).blockOpen = false ∧ (t.fw.get l).lastBlock = some b ∧
        (last → ControlAsked l (.blockStatus b []) .wait s t ∧ (t.fw.get l).pageDone = true) ∧
        (¬ last → ControlAsked l (.blockStatus b []) .block s t ∧ (t.fx.get l).block = (b + 1) % 256)) ∧
    (x.state = some .rVerdict ∨ x.state = some .rBlock → w.storeFull = true → ∀ e b k,
      ControlAsked l .endSession (.finish .storeFull) s (take (.pageDone e)) ∧
      (x.state = some .rBlock → ControlAsked l .endSession (.finish .storeFull) s (take (.blockEnd b k)))) ∧
    (∀ (f : ControlFrame) (e : PageEnd), x.state = some .rVerdict → w.storeFull = false → w.trained = false → x.lastFrame = some f →
      ControlAsked l f .wait s (take (.pageDone e)) ∧ ((take (.pageDone e)).fx.get l).state = some .rVerdict ∧
      (take (.pageDone e)).store = s.store ∧ ((take (.pageDone e)).fx.get l).kept = x.kept) ∧
    (∀ b count : Nat, x.state = some .rBlock → w.storeFull = false →
      (w.lastBlock = some b → w.blockOpen = false ∨ x.block ≠ b →
        ControlAsked l (.blockStatus b []) (if w.pageDone then .wait else .block) s (take (.blockEnd b count)) ∧
        (take (.blockEnd b count)).store = s.store ∧ ((take (.blockEnd b count)).fx.get l).state = some .rBlock ∧
        ((take (.blockEnd b count)).fx.get l).block = x.block) ∧
      (w.lastBlock ≠ some b → x.block ≠ b → take (.blockEnd b count) = s)) ∧
    (∀ e : PageEnd, x.state = some .rBlock → w.storeFull = false → w.waitingLine = none →
      let t := take (.pageDone e)
      (w.pageDone = false → t = s) ∧
      (w.pageDone = true → (t.fw.get l).lastVerdict = some .good ∧
        (e = .more → ControlAsked l .pageOk .block s t ∧ (t.fx.get l).state = some .rBlock) ∧
        (e = .change → ControlAsked l .pageOk .wait s t ∧ (t.fx.get l).state = some .rVerdict) ∧
        (e = .last → ControlAsked l .pageOk .wait s t ∧ (t.fx.get l).state = some .rEnd) ∧
        ∀ k : Fin 256, w.pageEntry = some k → x.document.isSome → (t.fx.get l).kept = x.kept + 1 ∧ t.store.pages[k].verdict = .good)) ∧
    ((s.lc.get l).state = .fax → (s.lc.get l).entryRef = none →
      (x.role = .receiver → x.state = some .rVerdict →
        FaxEnds l (if x.lastFrame = some .checkFail then .checkFailed else .pageFailed) s (take .endSession)) ∧
      (x.role = .receiver → x.state = some .rOffer → FaxEnds l .checkFailed s (take .endSession)) ∧
      (x.role = .receiver → x.state = some .rPage ∨ x.state = some .rBlock → FaxEnds l .pageFailed s (take .endSession)) ∧
      (x.role = .receiver → x.state = some .rEnd → FaxEnds l .done s (take .endSession) ∧
        ∀ n, x.document = some n → w.pageEntry = none → 0 < x.kept → (take .endSession).store.dir[n].state = .complete) ∧
      (x.role = .sender → x.state = some .sWaitOffer ∨ x.state = some .sChoose ∨ x.state = some .sCheck ∨ x.state = some .sPage ∨
        x.state = some .sBlock ∨ x.state = some .sAwaitVerdict → FaxEnds l .pageFailed s (take .endSession))) ∧
    (x.state = some .sEnd ∨ x.state = some .rCheck → ∀ f, take f = s)) ∧
  (∀ (l : LineId) (s : State), (s.fx.get l).role = .receiver → (s.fw.get l).step = .blockData →
    let w := s.fw.get l
    (∀ (a : Option Byte) (b : Byte) (bs : List Byte), b.toNat < 64 → 0 < bs.length → bs.length ≤ 256 → w.blockOpen = true →
      (w.frameWrites.length < 4 → faxRecord l ⟨a, .octets (b :: bs), .good⟩ s =
        { s with fw := s.fw.set l { w with written := (b.toNat, bs.length) :: w.written.filter (fun y => y.1 != b.toNat),
                                           frameWrites := w.frameWrites ++ [(w.blockBase + 256 * b.toNat, bs)] } }) ∧
      (4 ≤ w.frameWrites.length → ∃ u, faxRecord l ⟨a, .octets (b :: bs), .good⟩ s = u ∧
        u.fx = s.fx.set l { s.fx.get l with error := (s.fx.get l).error.orElse fun _ => some .late } ∧
        u = { s with fx := u.fx, pc := u.pc } ∧ Notices [⟨.fax, .line l, [.late]⟩] s u)) ∧
    (∀ (a : Option Byte) (c : Content) (v : RxVerdict), v ≠ .good → faxRecord l ⟨a, c, v⟩ s =
      { s with fx := s.fx.set l { s.fx.get l with error := (s.fx.get l).error.orElse fun _ => some (.verdict v) } }) ∧
    (∀ a, ((faxRecord l ⟨a, .octets [0xFF], .good⟩ s).fw.get l).step = .slow ∧
      ((faxRecord l ⟨a, .octets [0xFF], .good⟩ s).fx.get l).timer = true ∧
      ((faxRecord l ⟨a, .octets [0xFF], .good⟩ s).su.get l).mode = .faxSlow)) ∧
  ∀ (l : LineId) (s : State), (s.fw.get l).step = .pageData →
    let x := s.fx.get l
    let w := s.fw.get l
    let working := fun v : FaxWork => { s with fw := s.fw.set l v }
    (pageBit l false s = working { w with zeroRun := w.zeroRun + 1 }) ∧
    (w.zeroRun < 11 → w.started = true →
      let bits := w.lineBits ++ List.replicate w.zeroRun false ++ [true]
      pageBit l true s = working { w with zeroRun := 0, lineBits := bits.take 3456,
                                          lineOver := w.lineOver || decide (3456 < bits.length) }) ∧
    (11 ≤ w.zeroRun →
      (∀ n : Fin 128, w.started = false → x.document = some n → s.store.dir[n].pageList.length < 64 →
        (∃ k : Fin 256, s.store.pages[k].inUse = false) → ∃ k : Fin 256, s.store.pages[k].inUse = false ∧
          ((pageBit l true s).fw.get l).pageEntry = some k ∧ ((pageBit l true s).fw.get l).started = true ∧
          (pageBit l true s).store.pages[k].start = s.store.dir[n].length ∧ (pageBit l true s).store.pages[k].inUse = true ∧
          ((pageBit l true s).fx.get l).page = if x.resent then x.page else x.page + 1) ∧
      (w.started = true → w.lineBits = [] → w.pendingEmpty < 5 → pageBit l true s = working
        { w with pendingEmpty := w.pendingEmpty + 1, zeroRun := 0, lineOver := false, lineSpoiled := false }) ∧
      (w.started = true → w.lineBits = [] → w.pendingEmpty = 5 → ((pageBit l true s).fx.get l).state = some .rVerdict ∧
        ((pageBit l true s).fx.get l).timer = true ∧ ((pageBit l true s).su.get l).mode = .faxSlow ∧
        ((pageBit l true s).fw.get l).step = .slow) ∧
      ∀ n : Fin 128, w.started = true → w.lineBits ≠ [] → w.pendingEmpty = 0 → w.storeFull = false → w.waitingLine = none →
        x.document = some n →
        let line := bitsOctets (w.lineBits ++ List.replicate ((8 - w.lineBits.length % 8) % 8) false) ++ [0x00, 0x80]
        let bad := w.lineOver || w.lineSpoiled
        let len := s.store.dir[n].length + line.length
        (len + 511) / 512 ≤ s.store.dir[n].blocks.length →
        (len - 1) / 512 ≤ (s.store.dir[n].length - w.unwritten.length) / 512 + 1 →
        ∃ u, pageBit l true s = u ∧ u.store.dir = s.store.dir.set n { s.store.dir[n] with length := len } ∧
          u.fw = s.fw.set l { w with unwritten := w.unwritten ++ line, lineEnds := w.lineEnds ++ [len], zeroRun := 0, lineBits := [],
                                     lineOver := false, lineSpoiled := false } ∧
          u.fx = s.fx.set l
            { x with received := x.received + 1, badLines := if bad then x.badLines + 1 else x.badLines,
                     badRun := if bad then x.badRun + 1 else 0, longestBad := max x.longestBad (if bad then x.badRun + 1 else 0) } ∧
          u = { s with store := u.store, fw := u.fw, fx := u.fx, pc := u.pc } ∧ u.store.dram = s.store.dram)
/-! ## The checked link and the streams -/

namespace Sys2Proof.Claims

/-- `s` with the link record, the link's working state and the line's channel replaced. -/
def withLink (l : LineId) (c : LinkRec) (w : LinkWork) (k : Channel) (s : State) : State :=
  { s with cl := c, cw := w, fc := s.fc.set l k }

/-- A link has been opened on a line (R174): SETUP in a role, the unit in DATA, the channel bound at the role's address, the CP's streams bound
with eight chunks of credit granted. -/
structure LinkOpened (l : LineId) (role : LinkRole) (s u : State) : Prop where
  link : u.cl.state = .setup ∧ u.cl.role = role ∧ u.cl.line = some l ∧ u.cl.s = 0 ∧ u.cl.v = 0 ∧ u.cl.outstanding = [] ∧
    u.cl.ahead = [] ∧ u.cl.outcome = none
  line : (u.lc.get l).state = .data ∧ (u.lc.get l).purpose = .data ∧ (u.lc.get l).hook = true
  unit : (u.su.get l).mode = .data ∧ (u.su.get l).training = true ∧ (u.su.get l).ownCeiling = s.clSet.ceiling ∧
    (u.su.get l).peerCeiling = 5 ∧ (u.su.get l).lossTime = s.clSet.lossTime
  channel : (u.fc.get l).owner = .cl ∧ (u.fc.get l).ownAddress = (match role with | .caller => 0x01 | .answerer => 0x03) ∧
    (u.fc.get l).filter = .exact ∧ (u.fc.get l).limit = 300 ∧ (u.fc.get l).counts = .zero
  streams : u.st = { s.st with cp :=
    ⟨⟨.active, some .link, 8, [], false, none, false, 0, 0, 0, .header [], false⟩,
      ⟨.active, some .link, 0, [], none, false, false, 0, 0, false⟩⟩ }
  credit : u.pc.cp.creditOut = s.pc.cp.creditOut ++ [8]
  frame : u = { s with lc := u.lc, su := u.su, fc := u.fc, cl := u.cl, cw := u.cw, st := u.st, pc := u.pc }

/-- The setup has ended unanswered with plain fallback on (R176). -/
structure PlainEntered (l : LineId) (s u : State) : Prop where
  link : u.cl = { s.cl with state := .plain }
  unit : u.su = s.su.set l { s.su.get l with plain := true }
  channel : u.fc = s.fc.set l (s.fc.get l).disableTx.disableRx
  work : u.cw = { s.cw with setup := .stopped, control := [], reached := true }
  notices : Notices [⟨.link, .link, [.state]⟩] s u
  frame : u = { s with cl := u.cl, cw := u.cw, su := u.su, fc := u.fc, pc := u.pc }

/-- A port's stream changes its state, raising its notice towards that port alone (R190). -/
def StreamTo (p : PortId) (d : Dir) (t : Streams) (s u : State) : Prop :=
  u = { s with st := s.st.set p t, pc := s.pc.set p (noticed ⟨.stream, .stream d, [.state]⟩ (s.pc.get p)) }

/-- The fields of WRITE name an entry of a kind (R191): a voice kind with its mailbox and format, or a FAX-OUT that may carry a station identity of 1 to 20
printable characters (ASCII 0x20 to 0x7E, log 16). -/
def WriteNames (a : WriteArgs) (k : Kind) (m : Option (Fin 5)) (f : Option VoiceFormat) (t : Option (List Byte)) : Prop :=
  a.kind = some k ∧ a.station = t ∧
  (((k = .voice ∨ k = .greeting ∨ k = .announce) ∧ t = none ∧
      ∃ (mb : Fin 5) (c : Code) (r : Rate), a.mailbox = some mb.val ∧ a.code = some c ∧ a.rate = some r ∧ m = some mb ∧ f = some ⟨c, r, none⟩) ∨
    (k = .faxOut ∧ a.mailbox = none ∧ a.code = none ∧ a.rate = none ∧ m = none ∧ f = none ∧
      ∀ bs, t = some bs → 1 ≤ bs.length ∧ bs.length ≤ 20 ∧ ∀ b ∈ bs, 0x20 ≤ b.toNat ∧ b.toNat ≤ 0x7E))

/-- The DMA option that a command from a port carries: none is off, and only the CP may name one (R191, R193, R198). -/
def DmaNamed (p : PortId) (a : Option Bool) (on : Bool) : Prop := (a = none ∧ on = false) ∨ (p = .cp ∧ a = some on)

/-- A port's READ handle has been closed (R79): the last close on an entry that is DELETE-PENDING frees it. -/
structure ReadClosed (p : PortId) (k : Fin 4) (x : Handle) (s u : State) : Prop where
  frame : u = { s with store := u.store, pc := u.pc }
  handles : u.store.handles = s.store.handles.filter fun y => y.holder != .port p k
  stays : s.store.dir[x.entry].state ≠ .deletePending ∨ (∃ y ∈ s.store.handles, y.holder ≠ .port p k ∧ y.entry = x.entry) →
    u.store = { s.store with handles := u.store.handles } ∧ u.pc = s.pc
  frees : s.store.dir[x.entry].state = .deletePending → (∀ y ∈ s.store.handles, y.entry = x.entry → y.holder = .port p k) →
    u.store.dir[x.entry] = .free ∧ u.store.freeList = s.store.freeList ++ s.store.dir[x.entry].blocks.map fun b => b.num

/-- The write of an entry has been discarded (R69, R76, R78): its WRITE handle is closed, the streams that read it halt with MESSAGE-GONE, the pages of a
FAX-OUT are released, and it is FREE, or DELETE-PENDING with its blocks while a port's handle is open on it. -/
structure WriteDiscarded (m : Fin 128) (s u : State) : Prop where
  closed : ∀ y ∈ u.store.handles, y.entry = m → y.write = false
  freed : s.store.openCount m = 1 → u.store.dir[m] = .free
  stays : (∃ q k y, s.store.handle? (.port q k) = some y ∧ y.entry = m ∧ y.write = false) →
    u.store.dir[m] = { s.store.dir[m] with state := .deletePending, pageList := u.store.dir[m].pageList }
  told : ∀ q k y, (s.st.get q).outb.binding = some (.handle k) → s.store.handle? (.port q k) = some y → y.entry = m → y.write = false →
    (s.st.get q).outb.state = .active ∨ (s.st.get q).outb.state = .waiting →
    (u.st.get q).outb = { (s.st.get q).outb with
      state := .halted, halt := some .messageGone, haltPending := false, credit := 0, buffer := [], bursts := 0, burst := false }
  pages : s.store.dir[m].kind = .faxOut → ∀ k ∈ s.store.dir[m].pageList, u.store.pages[k].inUse = false

end Sys2Proof.Claims

/-- LINK OPEN, ANSWER with purpose DATA, LINK CLOSE, LINK STATUS and SET LINK (R172, R174, R185, R187, R188): the CP opens a link on a line it controls in
VOICE or answers one, if it has no other; LINK CLOSE abandons what is outstanding and sends CLOSE; the PP is refused.
Where the spec leaves a choice it is the model's, of log 42. -/
def Obligations.LinkObeysTheComputer : Prop :=
  (∀ (h : CmdHead) (l : LineId) (n : Nat) (s : State), lineOfNat n = some l →
    let r := s.lc.get l
    let free := s.cl.state = .ended ∧ s.st.cp.inb.state = .unbound ∧ s.st.cp.outb.state = .unbound
    (∀ role, h.port = .pp → Takes h (.linkOpen n role) s → Does (.linkOpen h n role) h .wrongState s s) ∧
    (h.port = .cp → r.controller = .port .cp →
      (∀ role, Takes h (.linkOpen n (some role)) s → r.state = .voice →
        (free → (s.fc.get l).owner = .none → (s.vp.get (ctxOf l)).activity = .idle → s.vm.pendingRecord.get l = none →
          ∃ u, Does (.linkOpen h n (some role)) h .accepted s u ∧ LinkOpened l role s u) ∧
        (¬ free → Does (.linkOpen h n (some role)) h .inUse s s)) ∧
      (∀ role, Takes h (.linkOpen n (some role)) s → r.state ≠ .voice → r.state ≠ .seized →
        Does (.linkOpen h n (some role)) h .wrongState s s) ∧
      (Takes h (.answer n (some .data)) s → r.state = .ringing → r.window = .closed → (s.fc.get l).owner = .none → free →
        ∃ u, Does (.answer h n (some .data)) h .accepted s u ∧ LinkOpened l .answerer s u))) ∧
  (∀ (h : CmdHead) (s : State), Takes h .linkClose s →
    (h.port = .pp ∨ s.cl.state = .ended → Does (.linkClose h) h .wrongState s s) ∧
    (∀ l, h.port = .cp → s.cl.state = .opened ∨ s.cl.state = .heldByPeer → LinkRoom l s → s.st.cp.inb.slots = [] →
      ∃ u, Does (.linkClose h) h .ok s u ∧ Notices [⟨.link, .link, [.state]⟩] s u ∧
        u = { withLink l { s.cl with state := .closing, outstanding := [], ahead := [], timer := .stopped, proposal := none,
                                     closeCount := 1, returnState := none } s.cw (offered s.cl.role .close .linkClose (s.fc.get l)) s
              with pc := u.pc }) ∧
    (∀ l, h.port = .cp → s.cl.state = .setup ∨ s.cl.state = .plain → s.cl.line = some l → (s.lc.get l).state = .data →
      (s.lc.get l).entryRef = none → ∃ u, Does (.linkClose h) h .ok s u ∧ LinkEnds l .closed s u)) ∧
  (∀ (h : CmdHead) (s : State), Takes h .linkStatus s → ∃ v : LinkView, OnlyAnswers (.linkStatus h) h .ok (.link v) s ∧
    let c := s.cl
    v.state = c.state ∧ v.role = c.role ∧ v.line = c.line ∧ v.window = c.window ∧ v.payload = c.payload ∧ v.ceiling = c.ceiling ∧
    v.rate = c.rate ∧ v.quality = c.quality ∧ v.s = c.s ∧ v.v = c.v ∧ v.outstanding = c.outstanding.map (fun d => d.n) ∧
    v.ahead = c.ahead.map (fun d => d.n) ∧ v.retries = c.retries ∧ v.peerBusy = c.peerBusy ∧ v.ownBusy = c.ownBusy ∧
    v.bad + c.history.countP (fun g => g) = c.history.length ∧ v.goodRun = c.goodRun ∧ v.built = c.built ∧
    v.sentAgain = c.sentAgain ∧ v.octetsSent = c.octetsSent ∧ v.octetsDelivered = c.octetsDelivered ∧ v.dropped = c.dropped ∧
    v.outcome = c.outcome) ∧
  ∀ (h : CmdHead) (a : LinkArgs) (s : State), Takes h (.setLink a) s →
    (a.plainFallback = .bad → OnlyAnswers (.setLink h a) h .badArgument .none s) ∧
    (a.plainFallback ≠ .bad → ∃ v : LinkSettings, let o := s.clSet
      exec (.setLink h a) s = .next (answered h .ok (.linkSettings v) { s with clSet := v }) ∧
      (v.window = match a.window with | some k => max 1 (min 15 k) | none => o.window) ∧
      (v.payload = match a.payload with | some k => max 16 (min 256 k) | none => o.payload) ∧
      (v.ceiling.val = match a.ceiling with | some k => min 5 k | none => o.ceiling.val) ∧
      (v.plainFallback = match a.plainFallback with | .val k => k | _ => o.plainFallback) ∧
      (v.retryLimit = match a.retryLimit with | some k => max 1 (min 15 k) | none => o.retryLimit) ∧
      (v.replyTimer = match a.replyTimer with | some k => max 200 (min 5000 k) | none => o.replyTimer) ∧
      (v.stepDown = match a.stepDown with | some k => max 1 (min 32 k) | none => o.stepDown) ∧
      (v.lossTime = match a.lossTime with | some k => max 500 (min 5000 k) | none => o.lossTime))

/-- The link's timers and octets (R175, R176, R179, R181 to R185). CALL_UP_INTERVAL_EXPIRY sends CALL-UP three times and then, as CALL_UP_WAIT_EXPIRY, falls back to plain
operation or ends the link; REPLY_TIMER_EXPIRY sends the oldest frame again with poll set, up to the retry limit, or CLOSE; a proposal lapses;
plain octets pass between the line and the CP's streams; a held payload is delivered once there is room.
Where the spec leaves a choice it is the model's, of logs 4 and 61. -/
def Obligations.LinkTimersAndOctets : Prop :=
  ∀ (l : LineId) (s : State), Runs s → s.cl.line = some l →
    let c := s.cl
    let k := s.fc.get l
    let proposed := s.cw.proposed.getD (s.clSet.window, s.clSet.payload)
    (c.state = .setup → s.cw.setup = .interval → s.cw.callUps < 3 → LinkRoom l s → Follows .callUpIntervalExpiry s
      (withLink l c { s.cw with callUps := s.cw.callUps + 1, proposed := some proposed }
        (offered c.role (.callUp proposed.1 proposed.2 s.cw.ownCeiling) .linkControl k) s)) ∧
    (∀ i : Instr, c.state = .setup → (s.lc.get l).entryRef = none →
      (i = .callUpIntervalExpiry ∧ s.cw.setup = .interval ∧ 3 ≤ s.cw.callUps) ∨ (i = .callUpWaitExpiry ∧ s.cw.setup = .wait) →
      (s.clSet.plainFallback = true → ∃ u, Follows i s u ∧ PlainEntered l s u) ∧
      (s.clSet.plainFallback = false → (s.lc.get l).state = .data → ∃ u, Follows i s u ∧ LinkEnds l .noPeer s u)) ∧
    (c.state ≠ .setup → Follows .callUpIntervalExpiry s s ∧ Follows .callUpWaitExpiry s s) ∧
    (c.timer = .running →
      (∀ (d : DataFrame) (ds : List DataFrame), c.state = .opened ∨ c.state = .heldByPeer → c.retries ≠ s.clSet.retryLimit →
        c.outstanding = d :: ds → d.payload.length ≤ 256 → LinkRoom l s → (s.su.get l).carrier = true → Follows .replyTimerExpiry s
          (withLink l { c with retries := min 15 (c.retries + 1), sentAgain := c.sentAgain + 1 } s.cw
            (offered c.role (.data d.n true c.v d.payload) (.linkData d.n) k) s)) ∧
      (c.state ≠ .closing → c.retries = s.clSet.retryLimit → (s.lc.get l).state = .data → (s.lc.get l).entryRef = none →
        ∃ u, Follows .replyTimerExpiry s u ∧ LinkEnds l .linkFailed s u) ∧
      (c.state = .closing → c.closeCount < 3 → LinkRoom l s → Follows .replyTimerExpiry s
        (withLink l { c with closeCount := c.closeCount + 1, timer := .stopped } s.cw (offered c.role .close .linkClose k) s)) ∧
      (c.state = .closing → 3 ≤ c.closeCount → (s.lc.get l).state = .data → (s.lc.get l).entryRef = none →
        ∃ u, Follows .replyTimerExpiry s u ∧ LinkEnds l .closed s u)) ∧
    (c.timer ≠ .running → Follows .replyTimerExpiry s s) ∧
    (∀ i, c.proposal = some (i, .running) → Follows .proposalTimerExpiry s { s with cl := { c with proposal := none } }) ∧
    (c.proposal = none ∨ (∃ i, c.proposal = some (i, .stopped) ∨ c.proposal = some (i, .suspended)) → Follows .proposalTimerExpiry s s) ∧
    (c.state = .plain → (s.su.get l).plain = true → (s.su.get l).mode = .data → (s.su.get l).training = false →
      let o := s.st.cp.outb
      let i := s.st.cp.inb
      (∀ b, (s.su.get l).carrier = true →
        (o.buffer.length < 512 → Follows (.plainOctetReceived b) s
          { s with st := { s.st with cp := { s.st.cp with outb := { o with buffer := o.buffer ++ [b] } } } }) ∧
        (512 ≤ o.buffer.length → Follows (.plainOctetReceived b) s { s with cl := { c with dropped := c.dropped + 1 } })) ∧
      (i.binding = some .link → i.state = .active → ∀ (b : Byte) (bs : List Byte) (cs : List (List Byte)), i.slots = (b :: bs) :: cs →
        (bs ≠ [] → Follows .plainOctetSent s
          { s with fc := s.fc.set l { k with wire := octetBits b }, st := { s.st with cp := { s.st.cp with inb := { i with slots := bs :: cs } } } }) ∧
        (bs = [] → cs = [] → Follows .plainOctetSent s
          { s with fc := s.fc.set l { k with wire := octetBits b }, st := { s.st with cp := { s.st.cp with inb := { i with slots := [], credit := i.credit + 1 } } },
                   pc := { s.pc with cp := { s.pc.cp with creditOut := s.pc.cp.creditOut ++ [1] } } }))) ∧
    (c.state ≠ .plain → (∀ b, Follows (.plainOctetReceived b) s s) ∧ Follows .plainOctetSent s s) ∧
    (c.state = .opened → s.pc.cp.state = .ready → s.cw.departed = false →
      let o := s.st.cp.outb
      (∀ d : DataFrame, c.ahead = [d] → d.n = c.v → c.ownBusy = false → o.buffer.length + d.payload.length + c.payload ≤ 512 →
        Follows .deferredDelivery s
          { s with cl := { c with v := (c.v + 1) % 32, ackDue := true, ahead := [],
                                  octetsDelivered := c.octetsDelivered + BitVec.ofNat 32 d.payload.length },
                   st := { s.st with cp := { s.st.cp with outb := { o with buffer := o.buffer ++ d.payload } } } }) ∧
      (c.ahead = [] → c.ownBusy = true → c.payload ≤ 256 → o.buffer.length ≤ 256 → LinkRoom l s → Follows .deferredDelivery s
        (withLink l { c with ownBusy := false } s.cw (offered c.role (.ready c.v) .linkControl k) s))) ∧
    (c.state = .ended → Follows .deferredDelivery s s)

namespace Sys2Proof.Claims

/-- A FAX-OUT write is parsed octet by octet (R166): a six-octet header, resolution, lines and bytes, opens a page at the byte after it; each line
ends at the octet pair 0x00 0x80 and has at most 434 octets; the section ends with its last line at its last byte, which fixes the page's
length. Anything else is malformed. -/
def ParsesSections (n : Fin 128) (st : Store) : Prop :=
  (∀ (pos : Nat) (b : Byte) (got : List Byte), got.length < 5 →
    parseOctet n pos b (.header got) st = some (.header (got ++ [b]), st)) ∧
  (∀ (pos : Nat) (res c0 c1 b0 b1 b2 : Byte),
    let count := c0.toNat + 256 * c1.toNat
    let bytes := b0.toNat + 256 * b1.toNat + 65536 * b2.toNat
    let opened := parseOctet n pos b2 (.header [res, c0, c1, b0, b1]) st
    (1 < res.toNat ∨ count = 0 ∨ bytes = 0 → opened = none) ∧
    (res.toNat ≤ 1 → 0 < count → 0 < bytes → st.dir[n].pageList.length < 64 → ∀ k : Fin 256, st.pages[k].inUse = false →
      (∀ j < k, st.pages[j].inUse = true) → ∃ t, opened = some (.lines k bytes count 0 false count bytes, t) ∧
        t.pages[k].inUse = true ∧ t.pages[k].owner = n ∧ t.pages[k].start = pos + 1 ∧
        t.pages[k].resolution = (if res = 0 then .standard else .fine) ∧ t.dir[n].pageList = st.dir[n].pageList ++ [k])) ∧
  ∀ (pos : Nat) (b : Byte) (k : Fin 256) (left lines inLine total bytes : Nat) (zero : Bool),
    let next := parseOctet n pos b (.lines k left lines inLine zero total bytes) st
    let ends := zero = true ∧ b = 0x80
    (¬ ends → (434 ≤ inLine + 1 ∨ left ≤ 1 → next = none) ∧
      (inLine + 1 < 434 → 1 < left →
        next = some (.lines k (left - 1) lines (inLine + 1) (b == 0x00) total bytes, st))) ∧
    (ends → (lines = 0 ∨ 434 < inLine + 1 → next = none) ∧
      (0 < lines → inLine + 1 ≤ 434 →
        (1 < left → next = some (.lines k (left - 1) (lines - 1) 0 false total bytes, st)) ∧
        (left ≤ 1 → lines = 1 → ∃ t, next = some (.header [], t) ∧ t.pages[k].byteLength = bytes ∧
          t.pages[k].committedLines = total ∧ t.pages[k].verdict = .good ∧ t.dir = st.dir) ∧
        (left ≤ 1 → 1 < lines → next = none)))

end Sys2Proof.Claims

namespace Sys2Proof.Claims

/-- A frame is offered at once and the rest of the link is as `c` says: the line has room for it (R173). -/
def LinkSays (l : LineId) (f : LinkFrame) (ref : FrameRef) (c : LinkRec) (s u : State) : Prop :=
  u = withLink l c s.cw (offered c.role f ref (s.fc.get l)) s

/-- The link's record changes, with one STATE notice. -/
def LinkMoves (c : LinkRec) (s u : State) : Prop := u = { s with cl := c, pc := u.pc } ∧ Notices [⟨.link, .link, [.state]⟩] s u

/-- The link begins a retrain at an agreed index (R184): RETRAINING, the proposal cleared, the unit retraining under that ceiling. -/
structure LinkRetrainsAt (l : LineId) (i : Fin 6) (s u : State) : Prop where
  link : u.cl = { s.cl with state := .retraining, returnState := some s.cl.state, proposal := none,
                            timer := if s.cl.timer = .running then .suspended else s.cl.timer }
  unit : u.su = s.su.set l { s.su.get l with
    mode := .retrain, returnMode := some .data, training := true, ownCeiling := i, lossTimer := false }
  notices : Notices [⟨.link, .link, [.state]⟩] s u
  frame : u = { s with cl := u.cl, su := u.su, fc := u.fc, pc := u.pc }

end Sys2Proof.Claims

/-- The records the link takes from its channel, in order, each entering the quality history (R173, R183), and what its frames do. CALL-UP and CALL-UP-ACK
agree the values and open the link (R175); a frame carries an acknowledgement (R178); RESEND sends named frames again (R180); DATA is
delivered in order, held ahead of it with a RESEND of what is missing, or behind it acknowledged, and a poll is answered (R181); HOLD and
READY stop and start the sender (R182), and a full buffer is told with HOLD; RATE and RATE-OK lead to a retrain at the agreed index (R184);
CLOSE is answered and CLOSE-ACK ends the link (R185).

Waiting bytes are built into a DATA frame while the window allows, and an acknowledgement that no frame carried goes alone (R177, R181). Many
BAD records propose a lower rate, a long GOOD run a higher one (R183).
Where the spec leaves a choice it is the model's, of log 35. -/
def Obligations.LinkFramesAreTaken : Prop :=
  (∀ (l : LineId) (k : Nat) (r : RxRecord) (rs : List RxRecord) (s : State), (s.fc.get l).owner = .cl → (s.fc.get l).reports = [] →
    (s.fc.get l).rxQueue = r :: rs →
    (linkCanTake r s = true →
      drainLine l (k + 1) s = drainLine l k (linkRecord r { s with fc := s.fc.set l { s.fc.get l with rxQueue := rs } })) ∧
    (linkCanTake r s = false → drainLine l (k + 1) s = linkWork s)) ∧
  (∀ (r : RxRecord) (s : State),
    let t := enterHistory (r.verdict == .good) s
    (∀ bs f, r.verdict = .good → r.content = .octets bs → readLink (if t.cl.state.takesData then t.cl.payload else 256) bs = some f →
      linkRecord r s = linkWork (takeFrameOf f t)) ∧
    (∀ bs, r.verdict = .good → r.content = .octets bs → readLink (if t.cl.state.takesData then t.cl.payload else 256) bs = none →
      linkRecord r s = linkWork t) ∧
    (r.verdict ≠ .good → linkRecord r s = linkWork t)) ∧
  ∀ (l : LineId) (s : State), s.cl.line = some l →
    let c := s.cl
    let o := s.st.cp.outb
    let space := 512 - o.buffer.length
    let isOpen := c.state = .opened ∨ c.state = .heldByPeer
    let carrier := (s.su.get l).carrier = true
    (∀ good : Bool,
      let h := (good :: c.history).take 32
      let run := if good then min 65535 (c.goodRun + 1) else 0
      let bads := h.countP fun g => g == false
      let c' := { c with history := h, goodRun := run }
      (c.state.takesData = false → enterHistory good s = s) ∧
      (c.state = .closing ∨ (isOpen ∧ c.proposal.isSome) → enterHistory good s = { s with cl := c' }) ∧
      (isOpen → c.proposal = none →
        (∀ i : Fin 6, s.clSet.stepDown ≤ bads → i.val + 1 = c.rate.val → LinkRoom l s →
          LinkSays l (.rate i) (.linkRate none) { c' with proposal := some (i, .stopped) } s (enterHistory good s)) ∧
        (bads < s.clSet.stepDown ∨ c.rate = 0 →
          (∀ i : Fin 6, 256 ≤ run → c.rate < c.ceiling → i.val = c.rate.val + 1 → need i + 4 ≤ c.quality.val → LinkRoom l s →
            LinkSays l (.rate i) (.linkRate none) { c' with proposal := some (i, .stopped) } s (enterHistory good s)) ∧
          (run < 256 ∨ c.ceiling ≤ c.rate ∨ (∀ i : Fin 6, i.val = c.rate.val + 1 → c.quality.val < need i + 4) →
            enterHistory good s = { s with cl := c' })))) ∧
    (∀ (w p : Nat) (i : Fin 6),
      let own := s.cw.proposed.getD (s.clSet.window, s.clSet.payload)
      let agreed := { c with window := min own.1 w, payload := min own.2 p, ceiling := if s.cw.ownCeiling ≤ i then s.cw.ownCeiling else i }
      (c.role = .caller → c.state = .setup → c.rate ≤ agreed.ceiling → s.cw.reached = false → (s.lc.get l).entryRef = none →
        ∃ u, takeFrameOf (.callUpAck w p i) s = u ∧ LinkMoves { agreed with state := .opened }
          { s with cw := { s.cw with setup := .stopped, reached := true } } u) ∧
      (c.role = .answerer → c.state = .setup → s.cw.ack = none → LinkRoom l s → takeFrameOf (.callUp w p i) s =
        withLink l agreed
          { s.cw with ack := some (LinkFrame.callUpAck own.1 own.2 s.cw.ownCeiling).octets, setup := .stopped, proposed := some own }
          (offered .answerer (.callUpAck own.1 own.2 s.cw.ownCeiling) .linkSetupAck (s.fc.get l)) s) ∧
      (∀ v q j, c.role = .answerer → c.state = .setup ∨ isOpen → s.cw.ack = some (LinkFrame.callUpAck v q j).octets → LinkRoom l s →
        LinkSays l (.callUpAck v q j) .linkSetupAck c s (takeFrameOf (.callUp w p i) s)) ∧
      (c.role = .answerer → c.state = .setup → c.rate ≤ c.ceiling → s.cw.reached = false → (s.lc.get l).entryRef = none →
        LinkMoves { c with state := .opened } { s with cw := { s.cw with setup := .stopped, reached := true } }
          (linkSent .linkSetupAck s))) ∧
    (isOpen ∨ c.state = .closing → carrier → ∀ a : Nat,
      let n := c.outstanding.length
      let d := match c.outstanding with | x :: _ => (a + 32 - x.n % 32) % 32 | [] => 0
      let left := c.outstanding.drop d
      let acked := { c with outstanding := left, retries := 0, timer := if left = [] then .stopped else .running }
      (1 ≤ d → d ≤ n → takeFrameOf (.ack a false) s = { s with cl := acked } ∧ takeFrameOf (.ack a true) s = { s with cl := acked }) ∧
      (d = 0 ∨ n < d → takeFrameOf (.ack a false) s = s ∧ takeFrameOf (.ack a true) s =
        if c.outstanding = [] then s else { s with cl := { c with timer := .running } })) ∧
    (∀ (a n : Nat) (d : DataFrame), isOpen → carrier → takeAck a s = s → c.outstanding.filter (fun x => x.n == n) = [d] →
      d.payload.length ≤ 256 → LinkRoom l s →
      ((∀ r ∈ (s.fc.get l).txQueue, r.ref ≠ .linkData n) → LinkSays l (.data n false c.v d.payload) (.linkData n)
        { c with sentAgain := c.sentAgain + 1, timer := .running } s (takeFrameOf (.resend a [n]) s)) ∧
      ((∃ r ∈ (s.fc.get l).txQueue, r.ref = .linkData n) → takeFrameOf (.resend a [n]) s = { s with cl := { c with timer := .running } })) ∧
    (∀ (n a : Nat) (bs : List Byte), isOpen ∨ c.state = .closing → c.outstanding = [] → n < 32 → c.v < 32 → s.pc.cp.state = .ready →
      s.cw.departed = false →
      let e := (n + 32 - c.v) % 32
      let took := takeFrameOf (.data n false a bs) s
      let delivered := { c with v := (c.v + 1) % 32, ackDue := true, octetsDelivered := c.octetsDelivered + BitVec.ofNat 32 bs.length }
      let joined := { s with st := { s.st with cp := { s.st.cp with outb := { o with buffer := o.buffer ++ bs } } } }
      (takeFrameOf (.data n true a bs) s = answerPoll took) ∧
      (e = 0 → bs.length ≤ space → c.ahead = [] → c.ownBusy = false →
        (c.payload ≤ space - bs.length → took = { joined with cl := delivered }) ∧
        (space - bs.length < c.payload → LinkRoom l s →
          LinkSays l (.hold ((c.v + 1) % 32)) .linkControl { delivered with ownBusy := true } joined took)) ∧
      (1 ≤ e → e < c.window →
        (c.ahead = [] → LinkRoom l s →
          LinkSays l (.resend c.v ((List.range (min 4 e)).map fun j => (c.v + j) % 32)) .linkControl { c with ahead := [⟨n, bs⟩] } s took) ∧
        ((∃ x ∈ c.ahead, x.n = n) → took = s)) ∧
      (1 ≤ e → c.window ≤ e → LinkRoom l s → LinkSays l (.ack c.v false) .linkControl c s took)) ∧
    (c.ahead = [] → isOpen ∨ c.state = .closing → LinkRoom l s →
      LinkSays l (if c.ownBusy then .hold c.v else .ack c.v true) .linkControl c s (answerPoll s)) ∧
    (∀ a : Nat, c.outstanding = [] →
      (c.state = .opened → (∃ u, takeFrameOf (.hold a) s = u ∧ LinkMoves { c with state := .heldByPeer, peerBusy := true } s u) ∧
        takeFrameOf (.ready a) s = s) ∧
      (c.state = .heldByPeer → takeFrameOf (.hold a) s = { s with cl := { c with retries := 0, timer := .stopped } } ∧
        ∃ u, takeFrameOf (.ready a) s = u ∧ LinkMoves { c with state := .opened, peerBusy := false, timer := .stopped } s u)) ∧
    (∀ i : Fin 6, isOpen →
      let agrees := fun c' : LinkRec => LinkSays l (.rateOk i) (.linkRate (some i)) c' s (takeFrameOf (.rate i) s)
      (c.ceiling < i → takeFrameOf (.rate i) s = s) ∧
      (i ≤ c.ceiling → c.proposal = none → LinkRoom l s → agrees c) ∧
      (∀ j t, i ≤ c.ceiling → c.proposal = some (j, t) →
        (i ≤ j → LinkRoom l s → agrees { c with proposal := none }) ∧ (j < i → takeFrameOf (.rate i) s = s)) ∧
      ((s.su.get l).mode = .data → (s.su.get l).training = false →
        (∃ t, c.proposal = some (i, t)) → LinkRetrainsAt l i s (takeFrameOf (.rateOk i) s)) ∧
      ((s.su.get l).mode = .data → (s.su.get l).training = false → LinkRetrainsAt l i s (linkSent (.linkRate (some i)) s)) ∧
      ((∀ t, c.proposal ≠ some (i, t)) → takeFrameOf (.rateOk i) s = s)) ∧
    (isOpen ∨ c.state = .closing ∨ c.state = .setup → LinkRoom l s → LinkSays l .closeAck .linkCloseAck c s (takeFrameOf .close s)) ∧
    (c.state = .plain ∨ c.state = .ended → takeFrameOf .close s = s) ∧
    ((s.lc.get l).state = .data → (s.lc.get l).entryRef = none →
      (c.state = .closing → LinkEnds l .closed s (takeFrameOf .closeAck s)) ∧ LinkEnds l .closed s (linkSent .linkCloseAck s)) ∧
    (c.state ≠ .closing → takeFrameOf .closeAck s = s) ∧
    (c.state = .setup → ∀ n poll a bs ns i, takeFrameOf (.data n poll a bs) s = s ∧ takeFrameOf (.ack a poll) s = s ∧
      takeFrameOf (.hold a) s = s ∧ takeFrameOf (.ready a) s = s ∧ takeFrameOf (.resend a ns) s = s ∧ takeFrameOf (.rate i) s = s ∧
      takeFrameOf (.rateOk i) s = s) ∧
    (LinkRoom l s → isOpen →
      let i := s.st.cp.inb
      let waiting := i.binding = some .link ∧ i.state = .active ∧ i.slots ≠ []
      let free := c.state = .opened ∧ c.outstanding.length < c.window ∧ c.peerBusy = false ∧ c.proposal = none
      (∀ bs : List Byte, free → i.binding = some .link → i.state = .active → i.slots = [bs] → bs ≠ [] → bs.length ≤ c.payload →
        c.payload ≤ 256 →
        LinkSays l (.data c.s false c.v bs) (.linkData c.s)
          { c with s := (c.s + 1) % 32, outstanding := c.outstanding ++ [⟨c.s, bs⟩], built := c.built + 1,
                   octetsSent := c.octetsSent + BitVec.ofNat 32 bs.length, ackDue := false }
          { s with st := { s.st with cp := { s.st.cp with inb := { i with slots := [], credit := i.credit + 1 } } },
                   pc := { s.pc with cp := { s.pc.cp with creditOut := s.pc.cp.creditOut ++ [1] } } }
          (linkWork s)) ∧
      (¬ waiting ∨ ¬ free → (c.ackDue = false → linkWork s = s) ∧
        (c.ackDue = true → LinkSays l (.ack c.v false) .linkControl { c with ackDue := false } s (linkWork s))))

/-- WRITE, READ, CLEAR STREAM, STREAM STATUS and the stream packets (R190 to R197): a write makes an entry and is granted eight chunks, a read is bound
to its handle at its position or at the start it names; a chunk takes a slot and one credit, a packet sends up to 64 bytes for one credit; a chunk without
credit halts the stream; at the end of an entry that has completed the end mark is sent, without credit, and the stream is FINISHED; CLEAR STREAM unbinds
a stream, closing a READ handle and discarding a write in progress.

A FAX-OUT write is parsed as it arrives, and halts BAD-FORMAT where it is malformed (R166). A write asks for a block at the first byte to be
written there, and halts STORE-FULL where it is refused; a voice block joins the entry if its header is well formed, else the stream halts
BAD-FORMAT; the write ends once its end mark has been seen and its buffer is empty, complete, or BAD-FORMAT and discarded (R192, R208).
Where the spec leaves a choice it is the model's, of logs 16, 43 and 62. -/
def Obligations.StreamsMoveBytes : Prop :=
  (∀ (n : Fin 128) (st : Store), ParsesSections n st) ∧
  (∀ (p : PortId) (x : Handle) (s : State), inHandle p s = some x →
    let i := (s.st.get p).inb
    let e := s.store.dir[x.entry]
    let discarded := fun (r : HaltReason) (u : State) => (u.st.get p).inb.state = .halted ∧ (u.st.get p).inb.halt = some r ∧
      (u.st.get p).inb.credit = 0 ∧ (u.st.get p).inb.slots = [] ∧
      (u.store.dir[x.entry].state = .free ∨ u.store.dir[x.entry].state = .deletePending)
    (inPending p s = true → e.blocks.length ≤ i.written / 512 →
      (∀ b bs, s.store.freeList = b :: bs →
        (askBlock p s).store.freeList = bs ∧ (askBlock p s).store.dir[x.entry].blocks.map (fun y => y.num) = e.blocks.map (fun y => y.num) ++ [b] ∧
        (askBlock p s).st = s.st) ∧
      (s.store.freeList = [] → discarded .storeFull (askBlock p s))) ∧
    (e.kind.isVoice = true → ∀ b f, e.blocks.getLast? = some b → e.format = some f →
      let hdr := memReadBytes (b.num * 512) 8 s.store.dram
      (headerOk f hdr = true → (commitVoiceBlock p x.entry s).store.dir[x.entry].committed = e.committed + headerCount hdr ∧
        (commitVoiceBlock p x.entry s).store.dir[x.entry].length = e.length + headerCount hdr ∧ (commitVoiceBlock p x.entry s).st = s.st) ∧
      (headerOk f hdr = false → discarded .badFormat (commitVoiceBlock p x.entry s))) ∧
    (i.endSeen = false ∨ i.slots ≠ [] → writeEnds p s = s) ∧
    (i.endSeen = true → i.slots = [] →
      let whole := if e.kind.isVoice then i.written % 512 = 0 else e.pageList ≠ [] ∧ i.parser = .header []
      (whole → (writeEnds p s).st = s.st.set p { s.st.get p with inb := { i with state := .finished, binding := none } } ∧
        (writeEnds p s).store.dir[x.entry].state = .complete ∧ (writeEnds p s).store.dir[x.entry].committed = e.length) ∧
      (¬ whole → discarded .badFormat (writeEnds p s)))) ∧
  (∀ (p : PortId) (x : Handle) (s : State), outHandle p s = some x →
    let o := (s.st.get p).outb
    let e := s.store.dir[x.entry]
    let ends := o.state = .active ∧ o.buffer = [] ∧ (e.state = .complete ∨ (e.state = .deletePending ∧ e.completed = true)) ∧
      e.length ≤ x.pos
    (ends → StreamTo p .outbound { s.st.get p with outb := { o with state := .finished } }
      { s with pc := s.pc.set p { s.pc.get p with dataOut := (s.pc.get p).dataOut ++ [⟨[], true⟩] } } (streamEnds p s)) ∧
    (¬ ends → streamEnds p s = s)) ∧
  (∀ (h : CmdHead) (a : WriteArgs) (kd : Kind) (m : Option (Fin 5)) (f : Option VoiceFormat) (on : Bool) (s : State), Takes h (.write a) s →
    WriteNames a kd m f a.station → DmaNamed h.port a.dma on →
    let t := s.st.get h.port
    (t.inb.state ≠ .unbound ∨ (on = true ∧ t.outb.dma = true) → Does (.write h a) h .inUse s s) ∧
    (t.inb.state = .unbound → on = false ∨ t.outb.dma = false →
      ((∀ k, (s.store.handle? (.port h.port k)).isSome) → Does (.write h a) h .noHandle s s) ∧
      ∀ k : Fin 4, s.store.handle? (.port h.port k) = none → (∀ j < k, (s.store.handle? (.port h.port j)).isSome) →
        ((∀ n : Fin 128, s.store.dir[n].state ≠ .free) → Does (.write h a) h .noRoom s s) ∧
        ∀ n : Fin 128, s.store.dir[n].state = .free → (∀ j < n, s.store.dir[j].state ≠ .free) →
          ∃ u, Follows (.write h a) s (answered h .ok (.written n k) u) ∧
            u.st = s.st.set h.port { t with inb := ⟨.active, some (.handle k), 8, [], false, none, on, 0, 0, 0, .header [], false⟩ } ∧
            u.store = { s.store with
              seqCounter := s.store.seqCounter + 1, handles := s.store.handles ++ [⟨.port h.port k, n, true, 0⟩],
              dir := s.store.dir.set n
                { seqNo := s.store.seqCounter, kind := kd, state := .writing, mailbox := m, source := .port h.port,
                  stamp := if s.tod.isSet then some s.tod.time else none, caller := none, station := a.station, format := f,
                  length := 0, committed := 0, blocks := [], pageList := [], reviewed := false, truncated := false, guarded := false,
                  stop := none, completed := false } } ∧
            (u.pc.get h.port).creditOut = (s.pc.get h.port).creditOut ++ [8] ∧ u = { s with st := u.st, store := u.store, pc := u.pc })) ∧
  (∀ (h : CmdHead) (a : ReadArgs) (k : Fin 4) (x : Handle) (on : Bool) (s : State), Takes h (.read a) s → a.handle = k.val →
    DmaNamed h.port a.dma on → s.store.handle? (.port h.port k) = some x →
    let t := s.st.get h.port
    let e := s.store.dir[x.entry]
    let pos := match a.start with | none => x.pos | some start => e.seekTo start
    (x.write = true → Does (.read h a) h .wrongState s s) ∧
    (x.write = false → t.outb.state ≠ .unbound ∨ (on = true ∧ t.inb.dma = true) → Does (.read h a) h .inUse s s) ∧
    (x.write = false → t.outb.state = .unbound → on = false ∨ t.inb.dma = false →
      ∃ v u, Follows (.read h a) s (answered h .ok (.position pos) u) ∧
        StreamTo h.port .outbound { t with outb :=
          ⟨if e.state = .writing ∧ e.committed ≤ pos then .waiting else .active, some (.handle k), 0, [], none, false, on, 0, 0, false⟩ }
          v u ∧
        v = { s with store := v.store, pc := v.pc } ∧ (a.start = none → v = s) ∧
        v.store.handles = s.store.handles.map (fun y => if a.start.isSome ∧ y.holder = .port h.port k then { y with pos := pos } else y) ∧
        (a.start = none ∨ e.kind ≠ .voice ∨ pos ≠ e.length ∨ e.length = 0 ∨ (e.state ≠ .complete ∧ e.state ≠ .deletePending) ∨ e.reviewed = true →
          v.store = { s.store with handles := v.store.handles }) ∧
        (a.start.isSome → e.kind = .voice → pos = e.length → 0 < e.length → e.state = .complete → v.store.dir[x.entry].reviewed = true))) ∧
  (∀ (h : CmdHead) (d : Dir) (s : State), Takes h (.clearStream d) s →
    let t := s.st.get h.port
    let st := match d with | .inbound => t.inb.state | .outbound => t.outb.state
    let b := match d with | .inbound => t.inb.binding | .outbound => t.outb.binding
    let open? := match b with | some (.handle k) => s.store.handle? (.port h.port k) | _ => none
    let cleared : Streams := match d with
      | .inbound => { t with inb := ⟨.unbound, none, 0, [], false, none, false, 0, 0, 0, .header [], false⟩ }
      | .outbound => { t with outb := ⟨.unbound, none, 0, [], none, false, false, 0, 0, false⟩ }
    (st = .unbound → Does (.clearStream h d) h .wrongState s s) ∧
    (st = .active → b = some .link → s.cl.state ≠ .ended → Does (.clearStream h d) h .inUse s s) ∧
    (st ≠ .unbound → st ≠ .active ∨ b ≠ some .link ∨ s.cl.state = .ended →
      (open? = none ∨ (d = .inbound ∧ st ≠ .active) → ∃ u, Does (.clearStream h d) h .ok s u ∧ StreamTo h.port d cleared s u) ∧
      (∀ k x, d = .outbound → b = some (.handle k) → open? = some x → ∃ v u, Does (.clearStream h d) h .ok s u ∧
        StreamTo h.port d cleared s v ∧ ReadClosed h.port k x v u) ∧
      (∀ x, d = .inbound → st = .active → open? = some x → x.write = true → ∃ v u, Does (.clearStream h d) h .ok s u ∧
        StreamTo h.port d cleared s v ∧ WriteDiscarded x.entry v u))) ∧
  (∀ (h : CmdHead) (d : Dir) (s : State), Takes h (.streamStatus d) s → ∃ v : StreamView,
    OnlyAnswers (.streamStatus h d) h .ok (.stream v) s ∧ v.dir = d ∧
    let t := s.st.get h.port
    (d = .inbound → v.state = t.inb.state ∧ v.binding = t.inb.binding ∧ v.credit = t.inb.credit ∧ v.slots = t.inb.slots.length ∧
      v.endSeen = t.inb.endSeen ∧ v.halt = t.inb.halt ∧ v.dma = t.inb.dma ∧ v.moved = t.inb.moved) ∧
    (d = .outbound → v.state = t.outb.state ∧ v.binding = t.outb.binding ∧ v.credit = t.outb.credit ∧
      v.held = t.outb.buffer.length ∧ v.halt = t.outb.halt ∧ v.dma = t.outb.dma ∧ v.moved = t.outb.moved ∧
      ∀ n x, t.outb.binding = some (.handle n) → s.store.handle? (.port h.port n) = some x →
        v.entry = some x.entry ∧ v.position = some x.pos ∧ v.length = some s.store.dir[x.entry].length ∧
        v.committed = some s.store.dir[x.entry].committed)) ∧
  ∀ (p : PortId) (s : State), Runs s → (s.pc.get p).state = .ready → (s.pc.get p).cmdQueue.length < 4 →
    let t := s.st.get p
    let i := t.inb
    let o := t.outb
    let into := fun (j : InStream) => ({ s with st := s.st.set p { t with inb := j } } : State)
    let out := fun (j : OutStream) => ({ s with st := s.st.set p { t with outb := j } } : State)
    (i.binding = some .link → s.cw.departed = true → ∀ bs m, Follows (.streamDataIn p bs m) s s) ∧
    (∀ bs : List Byte, i.state = .active → i.binding = some .link → s.cw.departed = false → i.endSeen = false → bs ≠ [] →
      bs.length ≤ 64 →
      let j := { i with moved := i.moved + BitVec.ofNat 32 bs.length }
      (0 < i.credit → Follows (.streamDataIn p bs false) s (into { j with credit := i.credit - 1, slots := i.slots ++ [bs] })) ∧
      (i.credit = 0 → ∃ u, Follows (.streamDataIn p bs false) s u ∧
        StreamTo p .inbound { t with inb := { j with state := .halted, halt := some .creditExceeded, credit := 0, slots := [], burst := false } } s u)) ∧
    (∀ (k : Fin 4) (x : Handle) (bs : List Byte), i.state = .active → i.binding = some (.handle k) → i.endSeen = false →
      0 < i.credit → bs ≠ [] → bs.length ≤ 64 → s.store.handle? (.port p k) = some x → s.store.dir[x.entry].kind = .faxOut →
      (∀ r, parseOctets x.entry i.parsed bs i.parser s.store = some r → ∃ u ws, Follows (.streamDataIn p bs false) s u ∧
        StoreTo r.2 ws (into { i with
          moved := i.moved + BitVec.ofNat 32 bs.length, credit := i.credit - 1, slots := i.slots ++ [bs], parser := r.1,
          parsed := i.parsed + bs.length }) u) ∧
      (parseOctets x.entry i.parsed bs i.parser s.store = none → ∃ u, Follows (.streamDataIn p bs false) s u ∧
        (u.st.get p).inb.state = .halted ∧ (u.st.get p).inb.halt = some .badFormat ∧ (u.st.get p).inb.slots = [] ∧
        (u.store.dir[x.entry].state = .free ∨ u.store.dir[x.entry].state = .deletePending))) ∧
    (∀ k : Fin 4, i.state = .active → i.binding = some (.handle k) → i.endSeen = false →
      Follows (.streamDataIn p [] true) s (into { i with endSeen := true })) ∧
    (i.state ≠ .active → ∀ bs m, Follows (.streamDataIn p bs m) s s) ∧
    (∀ g : Byte, (o.state = .active ∨ o.state = .waiting →
        Follows (.streamCreditIn p g) s (out { o with credit := min 255 (o.credit + g.toNat) })) ∧
      (o.state = .halted ∨ o.state = .unbound ∨ o.state = .finished → Follows (.streamCreditIn p g) s s)) ∧
    (o.state = .active ∨ o.state = .waiting → o.buffer ≠ [] → o.binding ≠ some .link → o.haltPending = false →
      (1 ≤ o.credit → Follows (.streamDataOut p) s
        { out { o with buffer := o.buffer.drop 64, credit := o.credit - 1,
                       moved := o.moved + BitVec.ofNat 32 (min 64 o.buffer.length) } with
          pc := s.pc.set p { s.pc.get p with dataOut := (s.pc.get p).dataOut ++ [⟨o.buffer.take 64, false⟩] } }) ∧
      (o.credit = 0 → Follows (.streamDataOut p) s s)) ∧
    ∀ (k : Fin 4) (x : Handle), o.binding = some (.handle k) → s.store.handle? (.port p k) = some x → o.state = .waiting →
      (x.pos < s.store.dir[x.entry].committed ∨ s.store.dir[x.entry].state ≠ .writing → ∃ u, Follows (.streamResume p) s u ∧
        StreamTo p .outbound { t with outb := { o with state := .active } } s u) ∧
      (s.store.dir[x.entry].committed ≤ x.pos → s.store.dir[x.entry].state = .writing → Follows (.streamResume p) s s)

/-! ## Answered calls: the answer decision, classification and the answering session -/

namespace Sys2Proof.Claims

/-- Entry `n` is the COMPLETE entry of a kind and mailbox that the store finds first (R81). -/
def FirstOf (k : Kind) (m : Fin 5) (n : Fin 128) (st : Store) : Prop :=
  (st.dir[n].state = .complete ∧ st.dir[n].kind = k ∧ st.dir[n].mailbox = some m) ∧
    ∀ j < n, ¬ (st.dir[j].state = .complete ∧ st.dir[j].kind = k ∧ st.dir[j].mailbox = some m)

/-- A session's context plays an entry from position 0 through the line's play handle (R74, R114). -/
def PlaysFor (l : LineId) (op : VoiceOp) (n : Fin 128) (u : State) : Prop :=
  u.store.handle? (.linePlay l) = some ⟨.linePlay l, n, false, 0⟩ ∧ (u.vp.get (ctxOf l)).activity = .playing ∧
    (u.vp.get (ctxOf l)).entry = some n ∧ u.vm.report.get (ctxOf l) = ⟨op, none, some n, 0, none, none, none, false⟩

/-- A session in VOICE has gone to a mailbox (R114 to R116): its greeting plays, or without one a beep is sent. -/
structure Greets (l : LineId) (m : Fin 5) (s u : State) : Prop where
  mailbox : (u.vm.session.get l).mailbox = m
  greeting : ∀ n, FirstOf .greeting m n s.store → (u.vm.session.get l).phase = .greeting ∧ PlaysFor l .greeting n u
  beep : (∀ n : Fin 128, ¬ (s.store.dir[n].state = .complete ∧ s.store.dir[n].kind = .greeting ∧ s.store.dir[n].mailbox = some m)) →
    (u.vm.session.get l).phase = .beep ∧ Beeping l .sessionBeep s u ∧
      u.vm.report.get (ctxOf l) = ⟨.beep, none, none, 0, none, none, none, false⟩

/-- Event `i` has the answer decision taken on a line in RINGING under AUTOMATIC (R9): a burst end at which it falls due with the window CLOSED, or on
a line that is due the closing of its window by a second burst, its timeout or a complete message. `t` is the state with the caller record and the
clock as they then are (R21, R24). -/
def TakesDecision (l : LineId) (i : Instr) (s t : State) : Prop :=
  let r := s.lc.get l
  let knows := fun c : Option CallerRecord => { s with lc := s.lc.set l { r with caller := c } }
  r.state = .ringing ∧ r.controller = .automatic ∧ r.entryRef = none ∧
    ((r.window = .closed ∧ r.decided = false ∧ r.snapshot ≤ r.ringCount ∧ (∃ e, i = .ringBurstEnd l e) ∧ t = s) ∨
     (r.due = true ∧
      ((r.window ≠ .closed ∧ i = .ringBurstStart l ∧ t = knows (windowShut r).caller) ∨
       (r.window = .opened ∧ i = .callerWindowTimeout l ∧ t = knows (windowShut r).caller) ∨
       ∃ o fault, r.window = .opened ∧ (s.su.get l).mode = .callerRx ∧ messageComplete (r.callerOctets ++ [o]) = true ∧
        i = .callerOctet l o fault ∧
        let made := judgeMessage r.policy (r.callerFault || fault) (r.callerOctets ++ [o])
        t = { knows (some made) with tod := clockAfter r.policy.setClock made s.tod })))

/-- The line has been answered for VOICE (R11). -/
def AnsweredVoice (l : LineId) (s u : State) : Prop :=
  (u.lc.get l).state = .voice ∧ (u.lc.get l).purpose = .voice ∧ (u.lc.get l).hook = true ∧ (u.lc.get l).ringCount = 0 ∧
    (u.lc.get l).snapshot = 0 ∧ (u.lc.get l).controller = .automatic ∧ (u.su.get l).mode = .voice ∧
    ∀ k, k ≠ l → u.lc.get k = s.lc.get k ∧ u.su.get k = s.su.get k ∧ u.vm.session.get k = s.vm.session.get k

/-- The call has been answered and not served, or its recording was not made: the line clears (R11, R13, R116). -/
def Clearing (l : LineId) (u : State) : Prop :=
  (u.lc.get l).state = .clearing ∧ (u.lc.get l).hook = false ∧ (u.su.get l).mode = .quiet

/-- A classified call's session has ended, and the call is with the Fax Controller's receiver (R12). -/
def TurnedToFax (l : LineId) (s u : State) : Prop :=
  u.vm.session.get l = .none (s.vm.session.get l).mailbox ∧ (u.lc.get l).state = .fax ∧ (u.lc.get l).purpose = .fax ∧
    (u.fx.get l).role = .receiver ∧ (u.fw.get l).step = .answerTone ∧ (u.fc.get l).owner = .fx ∧ (u.su.get l).mode = .faxSlow ∧
    (u.su.get l).generation = some ⟨.answerTone, 3000, 0, (s.su.get l).sampleClock⟩

/-- A classified call's session has ended, and the call is with the link as answerer (R12). -/
def TurnedToData (l : LineId) (s u : State) : Prop :=
  u.vm.session.get l = .none (s.vm.session.get l).mailbox ∧ (u.lc.get l).state = .data ∧ (u.lc.get l).purpose = .data ∧
    u.cl.state = .setup ∧ u.cl.role = .answerer ∧ u.cl.line = some l ∧ (u.fc.get l).owner = .cl ∧ (u.su.get l).mode = .data

/-- The session sounds its beep, nothing of it being in the store (R116). -/
def BeepPhase (l : LineId) (s : State) : Prop :=
  (s.vm.session.get l).phase = .beep ∧ (s.vp.get (ctxOf l)).activity = .idle ∧ s.store.handle? (.linePlay l) = none

/-- The session records into entry `n`, which no one reads (R116). -/
def SessionWrites (l : LineId) (n : Fin 128) (s : State) : Prop :=
  (s.vm.session.get l).phase = .recording ∧ (s.vp.get (ctxOf l)).activity = .recording ∧ (s.vp.get (ctxOf l)).entry = some n ∧
    s.store.dir[n].kind = .voice ∧ s.store.dir[n].state = .writing ∧ s.store.dir[n].pageList = [] ∧
    (s.vp.get (ctxOf l)).lateDrop = none ∧ ∀ x ∈ s.store.handles, x.entry = n → x.write = true

/-- The session records into entry `n`, which no one reads, into a store with room for its last two blocks (R116). -/
def SessionRecords (l : LineId) (n : Fin 128) (s : State) : Prop := SessionWrites l n s ∧ s.store.reserve + 2 ≤ s.store.freeList.length

/-- A session's recording has stopped for a reason (R108, R109, R118, R119): the line clears, and the recording is kept, or discarded with a call
note, as its length after the trim says. -/
structure SessionStopped (l : LineId) (n : Fin 128) (r : StopReason) (tail : Nat) (s u : State) : Prop where
  session : SessionCleared l s u
  context : u.vp.get (ctxOf l) = .idle (s.vp.get (ctxOf l)).settings
  stop : (u.vm.report.get (ctxOf l)).stop = some r
  kept : Rate.hz (s.vp.get (ctxOf l)).format.rate ≤ endLength r tail (s.vp.get (ctxOf l)) s.store.dir[n] →
    (u.vm.report.get (ctxOf l)).kept = some true ∧ u.store.dir[n].state = .complete ∧ u.store.dir[n].stop = some r ∧
      u.store.dir[n].length = endLength r tail (s.vp.get (ctxOf l)) s.store.dir[n] ∧ u.store.seqCounter = s.store.seqCounter ∧
      (r = .storeFull → u.store.dir[n].truncated = true)
  tooShort : endLength r tail (s.vp.get (ctxOf l)) s.store.dir[n] < Rate.hz (s.vp.get (ctxOf l)).format.rate →
    (u.vm.report.get (ctxOf l)).kept = some false ∧ u.store.seqCounter = s.store.seqCounter + 1

end Sys2Proof.Claims

/-- Calls are answered and classified, and the answering session takes its course (R9 to R12, R114 to R119). The answer decision of Table 1-11, at
the burst end at which the line falls due or at the closing of a due line's caller window, hands the line to an answering session, the announcement, a fax receiver or the link; a block whose channel is taken refuses
the call, which leaves a call note and a clearing line.

In the classification period a fax calling tone, or 3000 ms of silence after the beep, turns the call to FAX, and a data calling tone to
DATA or clears it with DATA-REFUSED, a recording begun being discarded without a note; a non-silent frame ends the period. In the greeting,
keys 1 to 4 go to that mailbox and `*` to the access code; the beep's end begins the recording, or without a FREE entry leaves a note; the
announcement's end leaves a note; SILENCE, MAX-LENGTH, LATE, STORE-FULL, the # key, a class DIAL, BUSY or CONGESTION and a loop break stop the
recording.
Where the spec leaves a choice it is the model's, of logs 4, 12, 14, 20 and 60. -/
def Obligations.CallsAreAnsweredAndClassified : Prop :=
  (∀ (l : LineId) (i : Instr) (s t : State), Runs s → TakesDecision l i s t →
    let mode := (s.lc.get l).policy.answerMode
    (mode = .voice ∨ mode = .auto → canVoice s.store → (s.vm.session.get l).phase = .none → ∃ u, Follows i s u ∧
      AnsweredVoice l s u ∧ (u.vm.session.get l).classification = (mode == .auto) ∧ Greets l 0 s u) ∧
    (∀ n, mode = .voice → ¬ canVoice s.store → FirstOf .announce 0 n s.store → (s.vm.session.get l).phase = .none →
      ∃ u, Follows i s u ∧ AnsweredVoice l s u ∧ (u.vm.session.get l).phase = .announce ∧
        (u.vm.session.get l).mailbox = 0 ∧ PlaysFor l .announce n u) ∧
    (mode = .fax ∨ (mode = .auto ∧ ¬ canVoice s.store) → canFax s.store →
      ((s.fc.get l).owner = .none → ∃ u, Follows i s u ∧ ReceiverOpened l t u ∧ (u.lc.get l).ringCount = 0) ∧
      ((s.fc.get l).owner ≠ .none → ∃ u, Follows i s u ∧ Clearing l u ∧ u.store = (askCallNote l t).store)) ∧
    (mode = .data → canData s →
      ((s.fc.get l).owner = .none → ∃ u, Follows i s u ∧ LinkOpened l .answerer t u ∧ (u.lc.get l).ringCount = 0) ∧
      ((s.fc.get l).owner ≠ .none → ∃ u, Follows i s u ∧ Clearing l u ∧
        u.store = (askCallNote l t).store ∧ u.cl = { s.cl with outcome := some .dataRefused }))) ∧
  (∀ (l : LineId) (s : State), Runs s → (s.lc.get l).state = .voice → (s.lc.get l).entryRef = none →
    (s.vm.session.get l).classification = true → (s.su.get l).mode = .voice → (s.fc.get l).owner = .none →
    let pageFree := ∃ k : Fin 256, s.store.pages[k].inUse = false
    let q := s.vm.session.get l
    let c := ctxOf l
    let v := s.vp.get c
    let discarded := fun (n : Fin 128) (u : State) => u.store.dir[n].state = .free ∧ u.store.seqCounter = s.store.seqCounter
    let frame := { v with frameSum := 0, frameCount := 0 }
    let run := min 65535 (v.silenceRun + 1)
    (∀ i m, (s.dq.get l).record.phase = .idle → RaisesHeard l (s.su.get l) .faxCalling m i →
      (BeepPhase l s → (canFax s.store → ∃ u, Follows i s u ∧ TurnedToFax l s u) ∧
        (¬ canFax s.store → ∃ u, Follows i s u ∧ Clearing l u ∧ u.store = (askCallNote l s).store)) ∧
      ∀ n, SessionRecords l n s → (pageFree → ∃ u, Follows i s u ∧ TurnedToFax l s u ∧ discarded n u) ∧
        (¬ pageFree → ∃ u, Follows i s u ∧ Clearing l u ∧ u.store.seqCounter = s.store.seqCounter + 1)) ∧
    ((s.su.get l).heardData = false →
      (BeepPhase l s → (canData s → ∃ u, Follows (.dataCallingTone l) s u ∧ TurnedToData l s u) ∧
        (¬ canData s → ∃ u, Follows (.dataCallingTone l) s u ∧ Clearing l u ∧ u.store = (askCallNote l s).store ∧
          u.cl.outcome = if s.cl.state = .ended then some .dataRefused else s.cl.outcome)) ∧
      ∀ n, SessionRecords l n s → (canData s → ∃ u, Follows (.dataCallingTone l) s u ∧ TurnedToData l s u ∧ discarded n u) ∧
        (¬ canData s → ∃ u, Follows (.dataCallingTone l) s u ∧ Clearing l u ∧ u.store.seqCounter = s.store.seqCounter + 1)) ∧
    (∀ n, SessionRecords l n s → 192 ≤ v.frameCount →
      (192 * v.settings.threshold ≤ v.frameSum → Follows (.frameEnd c) s
        (withSession l { q with classification := false } (withCtx c { frame with silenceRun := 0 } s))) ∧
      (v.frameSum < 192 * v.settings.threshold → run * 20 < 3000 → Follows (.frameEnd c) s (withCtx c
        { frame with silenceRun := run, runStart := if v.silenceRun = 0 then v.lineCount - 192 else v.runStart } s)) ∧
      (v.frameSum < 192 * v.settings.threshold → 3000 ≤ run * 20 → pageFree →
        ∃ u, Follows (.frameEnd c) s u ∧ TurnedToFax l s u ∧ discarded n u))) ∧
  (∀ (l : LineId) (s : State), Runs s → (s.lc.get l).state = .voice → (s.su.get l).mode = .voice → (s.su.get l).heardKeypad = false →
    let q := s.vm.session.get l
    let heard := { s with su := s.su.set l { s.su.get l with detector := .keypad, heardKeypad := true } }
    (∀ (d : Fin 10) (m : Fin 5), q.phase = .greeting → (s.vp.get (ctxOf l)).activity = .playing → s.vm.signal.get l = .none →
      d.val = m.val → 1 ≤ m.val → ∃ u, Follows (.keypadDigit l (.digit d)) s u ∧ Greets l m s u ∧
        (u.vm.session.get l).classification = q.classification) ∧
    (q.phase = .greeting ∨ q.phase = .announce → s.vm.accessCode.isSome → ∃ u, Follows (.keypadDigit l .star) s u ∧
      (u.vm.session.get l).phase = .access ∧ (u.vm.session.get l).codeDigits = [] ∧ (u.vm.session.get l).codeTimer = true ∧
      (u.vm.session.get l).classification = false) ∧
    (q.phase = .greeting ∨ q.phase = .announce → s.vm.accessCode = none → Follows (.keypadDigit l .star) s heard)) ∧
  ∀ (l : LineId) (s : State), Runs s → (s.lc.get l).state = .voice → (s.lc.get l).entryRef = none →
    let q := s.vm.session.get l
    let c := ctxOf l
    let v := s.vp.get c
    let played := v.activity = .playing ∧ v.ended = true ∧ 60 * v.held.length ≤ v.pos ∧ (s.vm.report.get c).op ≠ .play
    (∀ g, BeepPhase l s → (s.su.get l).mode = .voice → (s.su.get l).generation = some g → g.tone = .beep →
      s.vm.signal.get l = .sessionBeep →
      (∀ n : Fin 128, s.store.dir[n].state = .free → (∀ k < n, s.store.dir[k].state ≠ .free) → ∃ u, Follows (.generationDone l) s u ∧
        (u.vm.session.get l).phase = .recording ∧ (u.vm.session.get l).entry = some n ∧
        (u.vm.session.get l).classification = q.classification ∧ u.vm.signal.get l = .none ∧
        (u.su.get l).generation = none ∧ (u.su.get l).lastTone = some ⟨.beep, .complete⟩ ∧
        u.vp = s.vp.set c { VoiceCtx.idle v.settings with
          activity := .recording, format := ⟨v.settings.code, v.settings.rate, some v.settings.dither⟩, dither := v.settings.dither,
          silenceTime := v.settings.silenceTime, maxLength := v.settings.maxLength, entry := some n, holder := some (.lineWrite l),
          startClock := (s.su.get l).sampleClock } ∧
        u.store.dir[n].state = .writing ∧ u.store.dir[n].kind = .voice ∧ u.store.dir[n].mailbox = some q.mailbox ∧
        u.store.dir[n].source = .line l ∧ u.store.dir[n].caller = (s.lc.get l).caller ∧
        u.store.handles = s.store.handles ++ [⟨.lineWrite l, n, true, 0⟩] ∧
        u.vm.report.get c = ⟨.record, none, some n, 0, none, none, none, false⟩) ∧
      ((∀ n : Fin 128, s.store.dir[n].state ≠ .free) → ∃ u, Follows (.generationDone l) s u ∧ SessionCleared l s u ∧
        u.store = (askCallNote l s).store)) ∧
    (played → q.phase = .greeting → ∃ u, Follows (.playbackEnd c) s u ∧ (u.vm.session.get l).phase = .beep ∧
      u.vm.signal.get l = .sessionBeep ∧ (u.vp.get c).activity = .idle ∧ u.store.handle? (.linePlay l) = none ∧
      ((s.su.get l).mode = .voice → Beeping l .sessionBeep s u)) ∧
    (played → q.phase = .announce → (∃ n : Fin 128, s.store.dir[n].state = .free) → ∃ u, Follows (.playbackEnd c) s u ∧
      SessionCleared l s u ∧ u.store.seqCounter = s.store.seqCounter + 1) ∧
    (∀ n i, SessionWrites l n s → (i = .voiceBlockFull c ∨ i = .bufferTurn (.voice c)) → blockSamples v.format.code ≤ v.fill →
      (v.other.block.isSome → v.settings.continueLate = false → ∃ u, Follows i s u ∧ SessionStopped l n .late 0 s u) ∧
      (v.other.block = none → s.store.freeList.length ≤ s.store.reserve → ∃ u, Follows i s u ∧ SessionStopped l n .storeFull 0 s u)) ∧
    (∀ n, SessionRecords l n s →
      ((s.lc.get l).loopBreak = true → ∃ u, Follows (.loopBreak l) s u ∧ SessionStopped l n .loopBreak 0 s u) ∧
      (q.classification = false → 192 ≤ v.frameCount → v.frameSum < 192 * v.settings.threshold →
        v.silenceTime ≤ min 65535 (v.silenceRun + 1) * 20 → ∃ u, Follows (.frameEnd c) s u ∧
          SessionStopped l n .silence (if v.silenceRun = 0 then v.lineCount - 192 else v.runStart) s u) ∧
      (v.maxLength ≠ 0 → v.maxLength * 9600 ≤ v.lineCount → ∃ u, Follows (.maxLengthReached c) s u ∧
        SessionStopped l n .maxLength 0 s u) ∧
      ((s.su.get l).mode = .voice → (s.su.get l).heardKeypad = false → ∃ u, Follows (.keypadDigit l .hash) s u ∧
        SessionStopped l n .key 0 s u) ∧
      ((s.dq.get l).record.phase = .idle → ∀ i m, RaisesCallEnd l (s.su.get l) m i → ∃ u, Follows i s u ∧
        SessionStopped l n .tone (m.clock - v.startClock) s u)) ∧
    (BeepPhase l s → (s.dq.get l).record.phase = .idle → ∀ i m, RaisesCallEnd l (s.su.get l) m i → ∃ u, Follows i s u ∧
      SessionCleared l s u ∧ u.store = (askCallNote l s).store)
/-! ## The end of a dial, and queued calls at work -/

namespace Sys2Proof.Claims

/-- Event `i` answers the dial on a line with an outcome (R52). -/
def Answers (l : LineId) (s : State) (i : Instr) (o : DialOutcome) : Prop :=
  let d := s.dq.get l
  let u := s.su.get l
  d.record.phase = .awaiting ∧ (s.lc.get l).state = .awaiting ∧
    ((i = .answerTone l ∧ o = .answeredTone ∧ u.mode = .tones ∧ u.heardAnswer = false) ∨
     (i = .speech l ∧ o = .answeredVoice ∧ u.mode = .tones ∧ u.heardSpeech = false) ∨
     (i = .ringbackSilenceExpiry l ∧ o = .answeredVoice ∧ d.silence = true ∧ 1 ≤ d.record.ringbacks))

/-- Event `i` ends the dial on a line, not answered, with an outcome (R48, R52); `d` is the dialler as the event leaves it. -/
def Fails (l : LineId) (s : State) (i : Instr) (o : DialOutcome) (d : Dialler) : Prop :=
  let old := s.dq.get l
  let u := s.su.get l
  (∃ b, old.step = .dialTone b ∧ (s.lc.get l).state = .dialling ∧ i = .dialToneWaitTimeout l ∧ o = .noDialTone ∧ d = old) ∨
  (old.record.phase = .awaiting ∧ (s.lc.get l).state = .awaiting ∧
    ((i = .answerTimerExpiry l ∧ o = .noAnswer ∧ d = old) ∨ (Raises l u .busy i ∧ o = .busy ∧ d = old) ∨
     (Raises l u .congestion i ∧ o = .congestion ∧ d = old) ∨
     (Raises l u .ringback i ∧ o = .noAnswer ∧ old.record.limit < min 255 (old.record.ringbacks + 1) ∧
      d = { old with record := { old.record with ringbacks := min 255 (old.record.ringbacks + 1) } })))

/-- The refusal of a data call is the link's last outcome where no link exists (R53, R171, log 60). -/
def dataRefused (s : State) : State := if s.cl.state = .ended then { s with cl := { s.cl with outcome := some .dataRefused } } else s

/-- A line is free for a queued call (R20, R57). -/
def LineFree (k : LineId) (s : State) : Prop :=
  (s.lc.get k).state = .idle ∧ (s.lc.get k).controller = .none ∧ (s.dq.get k).record.phase = .idle ∧
    (s.lc.get k).policy.outgoing = true ∧ (s.lc.get k).ringWait = false

/-- A queued call is due (R57). -/
def Due (n : Fin 8) (s : State) : Prop :=
  s.queue[n].state = .waiting ∧ s.queue[n].earliest ≤ s.queueTime ∧ (s.queue[n].purpose = .data → canData s)

/-- A due call is offered the line, line 0 where it may use both and both are free (R57). -/
def OfferedLine (n : Fin 8) (s : State) (l : LineId) : Prop :=
  LineFree l s ∧ (match l with
    | .line0 => s.queue[n].pref ≠ .line1
    | .line1 => s.queue[n].pref = .line1 ∨ (s.queue[n].pref = .either ∧ ¬ LineFree .line0 s))

/-- Dispatch has seized the line for a call and its dial has begun in a step (R20, R47, R58): the entry is DIALLING on the line, its handle back at
position 0. -/
structure Seized (n : Fin 8) (l : LineId) (step : DialStep) (s u : State) : Prop where
  frame : LineOnly l { s with
    queue := s.queue.set n { s.queue[n] with state := .dialling, line := some l },
    store := { s.store with handles := s.store.handles.map fun y => if y.holder = .entry n then { y with pos := 0 } else y },
    dq := s.dq.set l ⟨⟨some (.entry n), .dialling, s.queue[n].string, 0, false, false, 0, s.queue[n].ringLimit,
      (match s.queue[n].purpose with | .faxSend => .fax | .data => .data | .voiceDeliver => .voice | .ringOnly => .ringOnly),
      (s.dq.get l).record.outcome⟩, step, false⟩ } u
  unit : UnitAsked l .tones s u
  notices : Notices ([flagNotice l .state] ++ (if (s.lc.get l).caller = none then [] else [flagNotice l .caller]) ++
    [flagNotice l .state, ⟨.call, .entry n, [.changed]⟩, flagNotice l .state]) s u
  line : u.lc.get l = { s.lc.get l with
    state := .dialling, controller := .automatic, caller := none, entryRef := some n, hook := true, faultTimer := .stopped,
    purpose := (match s.queue[n].purpose with | .faxSend => .fax | .data => .data | _ => .voice),
    loopBreak := !s.pins.loop.get l, changes := (u.lc.get l).changes }

/-- A dial begun on a line whose extension is off hook has ended LINE-IN-USE at once (R51, R60): the entry is WAITING as before. -/
structure InUse (n : Fin 8) (l : LineId) (s u : State) : Prop where
  queue : u.queue = s.queue.set n { s.queue[n] with state := .waiting, line := none, outcome := some (.dial .lineInUse) }
  dial : (u.dq.get l).record.phase = .idle ∧ (u.dq.get l).record.owner = none ∧ (u.dq.get l).record.outcome = some .lineInUse
  line : (u.lc.get l).state = .clearing ∧ (u.lc.get l).hook = false ∧ (u.su.get l).mode = .quiet
  other : ∀ k, k ≠ l → u.lc.get k = s.lc.get k ∧ u.dq.get k = s.dq.get k ∧ u.su.get k = s.su.get k

/-- A call offered a line is dispatched on it (R51, R58). -/
def Dispatched (n : Fin 8) (l : LineId) (s u : State) : Prop :=
  (s.pins.ext.get l = true → InUse n l s u) ∧
  (s.pins.ext.get l = false → s.queue[n].blind = false → Seized n l (.dialTone true) s u) ∧
  (s.pins.ext.get l = false → s.queue[n].blind = true → ∃ v, Seized n l .none s v ∧ Begins l v u)

/-- `Offers ns s u`: the calls of a list are offered lines in turn, those that find none being passed over (R57). -/
inductive Offers : List (Fin 8) → State → State → Prop where
  | nil (s : State) : Offers [] s s
  | passed (n : Fin 8) (ns : List (Fin 8)) (s u : State) : (∀ l, ¬ OfferedLine n s l) → Offers ns s u → Offers (n :: ns) s u
  | taken (n : Fin 8) (l : LineId) (ns : List (Fin 8)) (s v u : State) : OfferedLine n s l → Dispatched n l s v → Offers ns v u →
      Offers (n :: ns) s u

/-- Two calls in dispatch order: the earlier start first, then the earlier creation (R57). -/
def GoesFirst (s : State) (a b : Fin 8) : Prop :=
  s.queue[a].earliest < s.queue[b].earliest ∨ (s.queue[a].earliest = s.queue[b].earliest ∧ s.queue[a].order ≤ s.queue[b].order)

/-- The entry of a call has finished in a state, with an outcome: it has the next finish order and no line, and its handle is closed (R55). -/
def Finished (n : Fin 8) (q : QueueState) (attempts : Nat) (o : Option CallOutcome) (s u : State) : Prop :=
  u.queue = s.queue.set n { s.queue[n] with
    state := q, attempts := attempts, outcome := o, line := none, finish := some s.finishCounter } ∧
    u.finishCounter = s.finishCounter + 1 ∧ u.store.handle? (.entry n) = none

/-- The entry of a call has taken a counted failure (R61). -/
def CountedFailure (n : Fin 8) (o : CallOutcome) (s u : State) : Prop :=
  let e := s.queue[n]
  let gone := ∃ m, e.message = some m ∧ s.store.dir[m].state = .deletePending
  (gone → Finished n .cancelled (e.attempts + 1) (some .documentGone) s u) ∧
  (¬ gone → e.attempts + 1 < e.attemptLimit → u.store.handles = s.store.handles ∧ u.finishCounter = s.finishCounter ∧
    u.queue = s.queue.set n { e with
      state := .waiting, attempts := e.attempts + 1, outcome := some o, line := none, earliest := s.queueTime + 60 * e.interval }) ∧
  (¬ gone → e.attemptLimit ≤ e.attempts + 1 → Finished n .failed (e.attempts + 1) (some o) s u)

/-- The dial of a queued call is over and its line clears (R13, R45, R53); `d` is the dialler it leaves. -/
structure QueuedDialEnds (l : LineId) (o : DialOutcome) (d : Dialler) (s u : State) : Prop where
  frame : LineOnly l { s with dq := s.dq.set l (endedDial o d), queue := u.queue, finishCounter := u.finishCounter,
                              store := { s.store with handles := u.store.handles }, vm := unbridged l s.vm } u
  unit : UnitAsked l .quiet s u
  line : u.lc.get l = { s.lc.get l with
    state := .clearing, changes := (u.lc.get l).changes, hook := false, loopBreak := false,
    faultTimer := if s.pins.loop.get l then .stopped else .running, extRemembered := false }

/-- A sender's session has been opened for a queued call (R60, R148). -/
structure SenderOpened (l : LineId) (n : Fin 8) (s u : State) : Prop where
  line : (u.lc.get l).state = .fax ∧ (u.lc.get l).hook = true ∧ (u.lc.get l).entryRef = some n
  session : (u.fx.get l).role = .sender ∧ (u.fx.get l).state = some .sWaitOffer ∧ (u.fx.get l).document = s.queue[n].message ∧
    (u.fx.get l).timer = true ∧ (u.fw.get l).settings = s.fxSet.get l ∧ (u.fw.get l).step = .slow
  unit : (u.su.get l).mode = .faxSlow ∧ (u.su.get l).lossTime = (s.fxSet.get l).lossTime
  channel : (u.fc.get l).owner = .fx ∧ (u.fc.get l).ownAddress = 0xFF ∧ (u.fc.get l).filter = .exact ∧ (u.fc.get l).limit = 300 ∧
    (u.fc.get l).rxMode = .framed ∧ (u.fc.get l).rxState ≠ .off ∧ (u.fc.get l).txState = .off
  frame : u = { s with lc := u.lc, su := u.su, fc := u.fc, fx := u.fx, fw := u.fw, pc := u.pc }
  other : ∀ k, k ≠ l → u.lc.get k = s.lc.get k ∧ u.su.get k = s.su.get k ∧ u.fc.get k = s.fc.get k ∧ u.fx.get k = s.fx.get k

/-- A delivery has been opened for a queued call (R60, R126): the line's context plays the message through the entry's handle. -/
structure DeliveryOpened (l : LineId) (n : Fin 8) (s u : State) : Prop where
  line : (u.lc.get l).state = .voice ∧ (u.lc.get l).hook = true ∧ (u.su.get l).mode = .voice
  session : (u.vm.session.get l).phase = .deliver ∧
    u.vm.report.get (ctxOf l) = ⟨.deliver, none, s.queue[n].message, 0, none, none, none, false⟩
  context : ∀ x, s.store.handle? (.entry n) = some x → (u.vp.get (ctxOf l)).activity = .playing ∧
    (u.vp.get (ctxOf l)).entry = some x.entry ∧ (u.vp.get (ctxOf l)).holder = some (.entry n)
  frame : u = { s with lc := u.lc, su := u.su, fc := u.fc, vm := u.vm, vp := u.vp, pc := u.pc }
  other : ∀ k, k ≠ l → u.lc.get k = s.lc.get k ∧ u.su.get k = s.su.get k ∧ u.vm.session.get k = s.vm.session.get k

/-- The queued call of an entry is at work on a line (R60). -/
def InCall (n : Fin 8) (l : LineId) (p : QueuePurpose) (s : State) : Prop :=
  (s.lc.get l).entryRef = some n ∧ s.queue[n].state = .inCall ∧ s.queue[n].line = some l ∧ s.queue[n].purpose = p

end Sys2Proof.Claims

/-- A port's dial ends (R48, R52, R53). DIAL_TONE_WAIT_TIMEOUT, ANSWER_TIMER_EXPIRY, and a BUSY or CONGESTION class, raised by a tone-on or by
a continuous tone, end it with their outcome, the line clearing; each RINGBACK class is counted, and the one beyond the limit ends it
NO-ANSWER; DIAL and FAX-CALLING classes do nothing in AWAITING; ANSWER_TONE, SPEECH and RINGBACK_SILENCE_EXPIRY answer it, a voice call going to VOICE under the port,
a data call to DATA with the link as caller, or, where the computer cannot take it, ending DATA-REFUSED.
Where the spec leaves a choice it is the model's, of logs 4, 59 and 60. -/
def Obligations.CallProgressEndsTheDial : Prop :=
  ∀ (l : LineId) (p : PortId) (s : State), Runs s → (s.dq.get l).record.owner = some (.port p) → (s.lc.get l).entryRef = none →
    let d := s.dq.get l
    let u0 := s.su.get l
    (∀ b, d.step = .dialTone b → (s.lc.get l).state = .dialling →
      ∃ u, Follows (.dialToneWaitTimeout l) s u ∧ DialFails l .noDialTone s u) ∧
    (d.record.phase = .awaiting → (s.lc.get l).state = .awaiting →
      (∃ u, Follows (.answerTimerExpiry l) s u ∧ DialFails l .noAnswer s u) ∧
      (∀ (i : Instr) (o : DialOutcome),
        (Raises l u0 .busy i ∧ o = .busy) ∨ (Raises l u0 .congestion i ∧ o = .congestion) ∨
          (Raises l u0 .ringback i ∧ o = .noAnswer ∧ d.record.limit < min 255 (d.record.ringbacks + 1)) →
        ∃ u, Follows i s u ∧ DialFails l o (if o = .noAnswer then withDial l { d with record := { d.record with
          ringbacks := min 255 (d.record.ringbacks + 1) } } s else s) u) ∧
      (∀ i, Raises l u0 .ringback i → min 255 (d.record.ringbacks + 1) ≤ d.record.limit → ∃ v b, Follows i s
        { s with su := s.su.set l v,
                 dq := s.dq.set l { d with record := { d.record with ringbacks := min 255 (d.record.ringbacks + 1) }, silence := b } }) ∧
      (∀ i, Raises l u0 .dial i ∨ Raises l u0 .faxCalling i → ∃ v b, Follows i s
        { s with su := s.su.set l v, dq := s.dq.set l { d with silence := b } }) ∧
      (∀ (i : Instr) (o : DialOutcome), Answers l s i o →
        (d.record.purpose = .voice → ∃ u, Follows i s u ∧ LineOnly l (withDial l (endedDial o d) s) u ∧ UnitAsked l .quiet s u ∧
          Shows l [.state] s u ∧
          u.lc.get l = { s.lc.get l with state := .voice, hook := true, faultTimer := .stopped, changes := (u.lc.get l).changes }) ∧
        (d.record.purpose = .data →
          (canData s → (s.fc.get l).owner = .none → ∃ u, Follows i s u ∧ LinkOpened l .caller (withDial l (endedDial o d) s) u) ∧
          (¬ canData s ∨ (s.fc.get l).owner ≠ .none → ∃ u, Follows i s u ∧ DialFails l .dataRefused (dataRefused s) u)))) ∧
    (d.record.phase ≠ .awaiting → Follows (.answerTimerExpiry l) s s ∧ Follows (.ringbackSilenceExpiry l) s s)

/-- Queue time, dispatch, the end of queued calls and retries (R20, R51, R53, R55, R57, R58, R60, R61, Table 3-6). QUEUE_TIME_TICK adds a second;
ENTRY_DUE offers the due calls lines in dispatch order, line 0 first, a call that finds none being passed over, and each line seized is dialled for
its purpose under AUTOMATIC.

An answered dial goes to the fax sender, the delivery or the link with its entry IN-CALL, or ends a RING-ONLY call DONE; a data call that the computer cannot
take waits with no attempt counted. BUSY, CONGESTION, NO-ANSWER, NO-DIAL-TONE and NO-CARRIER are counted failures, tried again after the retry interval
until the attempt limit; LINE-IN-USE counts nothing. An IN-CALL entry ends with its call: a fax session by its outcome, a delivery DONE when the line
clears or is taken, a data call DONE when the link reaches OPEN or PLAIN, or by the outcome of a link that reaches neither.
Where the spec leaves a choice it is the model's, of logs 4, 29, 55, 59 and 60. -/
def Obligations.CallsAreDispatchedAndRetried : Prop :=
  (∀ s : State, exec .queueTimeTick s = .next { s with queueTime := s.queueTime + 1 }) ∧
  (∀ (n : Fin 8) (s : State), Runs s →
    (s.queue[n].state = .waiting → s.queue[n].earliest ≤ s.queueTime → (∀ m : Fin 8, s.queue[m].string.length ≤ 40) →
      ∃ ns u, ns.Nodup ∧ (∀ m, m ∈ ns ↔ Due m s) ∧ ns.Pairwise (GoesFirst s) ∧ Offers ns s u ∧ Follows (.entryDue n) s u) ∧
    (s.queue[n].state ≠ .waiting ∨ s.queueTime < s.queue[n].earliest → Follows (.entryDue n) s s)) ∧
  (∀ (n : Fin 8) (l : LineId) (s : State), Runs s → (s.dq.get l).record.owner = some (.entry n) → (s.lc.get l).entryRef = some n →
    s.queue[n].state = .dialling →
    let e := s.queue[n]
    let d := s.dq.get l
    let working := fun o : DialOutcome => { s with dq := s.dq.set l (endedDial o d),
                                                   queue := s.queue.set n { e with state := .inCall, outcome := some (.dial o) } }
    (∀ i o, Answers l s i o →
      (e.purpose = .faxSend → d.record.purpose = .fax → (s.fc.get l).owner = .none → ∃ u, Follows i s u ∧ SenderOpened l n (working o) u) ∧
      (e.purpose = .voiceDeliver → d.record.purpose = .voice → ∃ u, Follows i s u ∧ DeliveryOpened l n (working o) u) ∧
      (e.purpose = .data → d.record.purpose = .data →
        (canData s → (s.fc.get l).owner = .none → ∃ u, Follows i s u ∧ LinkOpened l .caller (working o) u) ∧
        (¬ canData s ∨ (s.fc.get l).owner ≠ .none → ∃ u, Follows i s u ∧ QueuedDialEnds l .dataRefused d (dataRefused s) u ∧
          u.store = s.store ∧ u.queue = s.queue.set n { e with
            state := .waiting, line := none, outcome := some .dataRefused, earliest := s.queueTime + 60 * e.interval })) ∧
      (e.purpose = .ringOnly → d.record.purpose = .ringOnly → s.store.handle? (.entry n) = none → ∃ u, Follows i s u ∧
        QueuedDialEnds l o d s u ∧ Finished n .done (e.attempts + 1) (some (.dial o)) s u)) ∧
    (∀ i o d', Fails l s i o d' → (∀ x, s.store.handle? (.entry n) = some x → s.store.dir[x.entry].state ≠ .deletePending) →
      (e.purpose ≠ .ringOnly ∨ o ≠ .noAnswer → ∃ u, Follows i s u ∧ QueuedDialEnds l o d' s u ∧ CountedFailure n (.dial o) s u) ∧
      (e.purpose = .ringOnly → o = .noAnswer → ∃ u, Follows i s u ∧ QueuedDialEnds l o d' s u ∧
        Finished n .done (e.attempts + 1) (some (.dial o)) s u)) ∧
    (∀ i o d', Fails l s i o d' → e.purpose ≠ .ringOnly ∨ o ≠ .noAnswer → ∃ u, Follows i s u ∧ CountedFailure n (.dial o) s u ∧
      (u.lc.get l).state = .clearing ∧ u.dq.get l = endedDial o d') ∧
    ((s.lc.get l).state = .dialling → s.pins.ext.get l = false →
      let t := { s with pins := { s.pins with ext := s.pins.ext.set l true } }
      ∃ u, exec (.extChange l true) s = .next (settle t u) ∧ OnHook l (s.lc.get l).controller t u ∧ u.store = s.store ∧
        u.queue = s.queue.set n { e with state := .waiting, line := none, outcome := some (.dial .lineInUse) }) ∧
    ((s.lc.get l).state = .dialling ∨ (s.lc.get l).state = .awaiting → (s.lc.get l).loopBreak = true → ∃ u, Follows (.loopBreak l) s u ∧
      CallCleared l true (s.lc.get l).controller s u ∧ CountedFailure n (.dial .noCarrier) s u)) ∧
  ∀ (n : Fin 8) (l : LineId) (s : State), Runs s →
    let e := s.queue[n]
    let done := fun o u => Finished n .done (e.attempts + 1) o s u
    (InCall n l .faxSend s → (s.fx.get l).role = .sender → (s.lc.get l).state = .fax →
      (∀ o, (s.fw.get l).after = .finish o →
        let u := faxReport l (.tx (.control (s.fw.get l).serial) .sent) s
        FaxEnds l o s u ∧ (o = .done → done (some (.fax .done)) u) ∧ (o ≠ .done → CountedFailure n (.fax o) s u)) ∧
      ((s.su.get l).lossTimer = true → ∃ u, Follows (.carrierGone l) s u ∧ FaxEnds l .noCarrier s u ∧
        CountedFailure n (.fax .noCarrier) s u) ∧
      ((s.lc.get l).loopBreak = true → ∃ u, Follows (.loopBreak l) s u ∧ CallCleared l true (s.lc.get l).controller s u ∧
        CountedFailure n (.fax .noCarrier) s u)) ∧
    (InCall n l .voiceDeliver s → (s.lc.get l).state = .voice → (s.vm.session.get l).phase = .deliver →
      ((s.lc.get l).loopBreak = true → ∃ u, Follows (.loopBreak l) s u ∧ CallCleared l true (s.lc.get l).controller s u ∧ done e.outcome u) ∧
      (let v := s.vp.get (ctxOf l)
       v.activity = .playing → v.ended = true → 60 * v.held.length ≤ v.pos → (s.vm.report.get (ctxOf l)).op = .deliver →
        ∃ u, Follows (.playbackEnd (ctxOf l)) s u ∧ SessionCleared l s u ∧ done e.outcome u) ∧
      (∀ (h : CmdHead) (k : Nat), lineOfNat k = some l → Takes h (.takeLine k) s → (s.lc.get l).controller = .automatic →
        ∃ u, Does (.takeLine h k) h .ok s u ∧ (u.lc.get l).state = .voice ∧ (u.lc.get l).controller = .port h.port ∧
          (u.lc.get l).entryRef = none ∧ done e.outcome u)) ∧
    (InCall n l .data s → (s.lc.get l).state = .data → s.cl.line = some l → s.cl.state = .setup → s.cw.reached = false →
      (∀ i : Instr, (i = .callUpIntervalExpiry ∧ s.cw.setup = .interval ∧ 3 ≤ s.cw.callUps) ∨ (i = .callUpWaitExpiry ∧ s.cw.setup = .wait) →
        (s.clSet.plainFallback = true → ∃ u, Follows i s u ∧ u.cl = { s.cl with state := .plain } ∧ u.cw.reached = true ∧ done e.outcome u) ∧
        (s.clSet.plainFallback = false → ∃ u, Follows i s u ∧ u.cl.state = .ended ∧ u.cl.outcome = some .noPeer ∧
          (u.lc.get l).state = .clearing ∧ Finished n .failed (e.attempts + 1) (some (.link .noPeer)) s u)) ∧
      (∀ (w p : Nat) (i : Fin 6), s.cl.role = .caller →
        let u := takeFrameOf (.callUpAck w p i) s
        u.cw.reached = true ∧ done e.outcome u) ∧
      ((s.fx.get l).role = .none → (s.su.get l).lossTimer = true → ∃ u, Follows (.carrierGone l) s u ∧
        u.cl.state = .ended ∧ u.cl.outcome = some .noCarrier ∧
        (u.lc.get l).state = .clearing ∧ CountedFailure n (.link .noCarrier) s u) ∧
      (∀ h : CmdHead, h.port = .cp → Takes h .linkClose s → ∃ u, Does (.linkClose h) h .ok s u ∧ u.cl.state = .ended ∧
        u.cl.outcome = some .closed ∧ (u.lc.get l).state = .clearing ∧ CountedFailure n (.link .closed) s u)) ∧
    (InCall n l .data s → (s.lc.get l).state = .data → s.cl.line = some l → s.cl.state ≠ .ended → s.cw.reached = true →
      (s.fx.get l).role = .none → (s.su.get l).lossTimer = true →
      ∃ u, Follows (.carrierGone l) s u ∧ u.cl.state = .ended ∧ (u.lc.get l).state = .clearing ∧ u.queue = s.queue)
end

