-- ==== Sys2Proof/Laws/State.lean ====
section
/-! SUPPORT. What each update of one record changes, and that it changes nothing else: one lemma for each update, a conjunction
with one equation for each field of the state, true by `rfl`. -/

namespace Sys2Proof.Machine

/-! ## Pairs and triples -/

@[simp] theorem PerLine.get_set_same {α : Type} (v : PerLine α) (l : LineId) (a : α) : (v.set l a).get l = a := by
  cases l <;> rfl

theorem PerLine.get_set_other {α : Type} (v : PerLine α) {l k : LineId} (a : α) (h : k ≠ l) : (v.set l a).get k = v.get k := by
  cases l <;> cases k <;> first | rfl | exact absurd rfl h

theorem PerLine.get_set {α : Type} (v : PerLine α) (l k : LineId) (a : α) :
    (v.set l a).get k = if k = l then a else v.get k := by
  cases l <;> cases k <;> rfl

@[simp] theorem PerLine.set_get {α : Type} (v : PerLine α) (l : LineId) : v.set l (v.get l) = v := by cases l <;> rfl

@[simp] theorem PerLine.set_set {α : Type} (v : PerLine α) (l : LineId) (a b : α) : (v.set l a).set l b = v.set l b := by
  cases l <;> rfl

@[simp] theorem PerPort.get_set_same {α : Type} (v : PerPort α) (p : PortId) (a : α) : (v.set p a).get p = a := by
  cases p <;> rfl

theorem PerPort.get_set_other {α : Type} (v : PerPort α) {p k : PortId} (a : α) (h : k ≠ p) : (v.set p a).get k = v.get k := by
  cases p <;> cases k <;> first | rfl | exact absurd rfl h

theorem PerPort.get_set {α : Type} (v : PerPort α) (p k : PortId) (a : α) :
    (v.set p a).get k = if k = p then a else v.get k := by
  cases p <;> cases k <;> rfl

@[simp] theorem PerPort.set_get {α : Type} (v : PerPort α) (p : PortId) : v.set p (v.get p) = v := by cases p <;> rfl

@[simp] theorem PerPort.set_set {α : Type} (v : PerPort α) (p : PortId) (a b : α) : (v.set p a).set p b = v.set p b := by
  cases p <;> rfl

@[simp] theorem PerCtx.get_set_same {α : Type} (v : PerCtx α) (c : CtxId) (a : α) : (v.set c a).get c = a := by
  cases c <;> rfl

theorem PerCtx.get_set_other {α : Type} (v : PerCtx α) {c k : CtxId} (a : α) (h : k ≠ c) : (v.set c a).get k = v.get k := by
  cases c <;> cases k <;> first | rfl | exact absurd rfl h

theorem PerCtx.get_set {α : Type} (v : PerCtx α) (c k : CtxId) (a : α) :
    (v.set c a).get k = if k = c then a else v.get k := by
  cases c <;> cases k <;> rfl

@[simp] theorem PerCtx.set_get {α : Type} (v : PerCtx α) (c : CtxId) : v.set c (v.get c) = v := by cases c <;> rfl

@[simp] theorem PerCtx.set_set {α : Type} (v : PerCtx α) (c : CtxId) (a b : α) : (v.set c a).set c b = v.set c b := by
  cases c <;> rfl

/-! ## Updates -/

@[simp] theorem State.updLc_fields (s : State) (l : LineId) (f : LineRec → LineRec) :
    (s.updLc l f).pending = s.pending ∧ (s.updLc l f).standby = s.standby ∧ (s.updLc l f).pins = s.pins ∧
    (s.updLc l f).lc = s.lc.set l (f (s.lc.get l)) ∧ (s.updLc l f).su = s.su ∧ (s.updLc l f).dq = s.dq ∧
    (s.updLc l f).queue = s.queue ∧ (s.updLc l f).createCounter = s.createCounter ∧
    (s.updLc l f).finishCounter = s.finishCounter ∧ (s.updLc l f).queueTime = s.queueTime ∧ (s.updLc l f).store = s.store ∧
    (s.updLc l f).arb = s.arb ∧ (s.updLc l f).tod = s.tod ∧ (s.updLc l f).vp = s.vp ∧ (s.updLc l f).vm = s.vm ∧
    (s.updLc l f).fc = s.fc ∧ (s.updLc l f).fxSet = s.fxSet ∧ (s.updLc l f).fx = s.fx ∧ (s.updLc l f).fw = s.fw ∧
    (s.updLc l f).clSet = s.clSet ∧ (s.updLc l f).cl = s.cl ∧ (s.updLc l f).cw = s.cw ∧ (s.updLc l f).st = s.st ∧
    (s.updLc l f).pc = s.pc :=
  ⟨rfl, rfl, rfl, rfl, rfl, rfl, rfl, rfl, rfl, rfl, rfl, rfl, rfl, rfl, rfl, rfl, rfl, rfl, rfl, rfl, rfl, rfl, rfl, rfl⟩

@[simp] theorem State.updSu_fields (s : State) (l : LineId) (f : SignalUnit → SignalUnit) :
    (s.updSu l f).pending = s.pending ∧ (s.updSu l f).standby = s.standby ∧ (s.updSu l f).pins = s.pins ∧
    (s.updSu l f).lc = s.lc ∧ (s.updSu l f).su = s.su.set l (f (s.su.get l)) ∧ (s.updSu l f).dq = s.dq ∧
    (s.updSu l f).queue = s.queue ∧ (s.updSu l f).createCounter = s.createCounter ∧
    (s.updSu l f).finishCounter = s.finishCounter ∧ (s.updSu l f).queueTime = s.queueTime ∧ (s.updSu l f).store = s.store ∧
    (s.updSu l f).arb = s.arb ∧ (s.updSu l f).tod = s.tod ∧ (s.updSu l f).vp = s.vp ∧ (s.updSu l f).vm = s.vm ∧
    (s.updSu l f).fc = s.fc ∧ (s.updSu l f).fxSet = s.fxSet ∧ (s.updSu l f).fx = s.fx ∧ (s.updSu l f).fw = s.fw ∧
    (s.updSu l f).clSet = s.clSet ∧ (s.updSu l f).cl = s.cl ∧ (s.updSu l f).cw = s.cw ∧ (s.updSu l f).st = s.st ∧
    (s.updSu l f).pc = s.pc :=
  ⟨rfl, rfl, rfl, rfl, rfl, rfl, rfl, rfl, rfl, rfl, rfl, rfl, rfl, rfl, rfl, rfl, rfl, rfl, rfl, rfl, rfl, rfl, rfl, rfl⟩

@[simp] theorem State.updDq_fields (s : State) (l : LineId) (f : Dialler → Dialler) :
    (s.updDq l f).pending = s.pending ∧ (s.updDq l f).standby = s.standby ∧ (s.updDq l f).pins = s.pins ∧
    (s.updDq l f).lc = s.lc ∧ (s.updDq l f).su = s.su ∧ (s.updDq l f).dq = s.dq.set l (f (s.dq.get l)) ∧
    (s.updDq l f).queue = s.queue ∧ (s.updDq l f).createCounter = s.createCounter ∧
    (s.updDq l f).finishCounter = s.finishCounter ∧ (s.updDq l f).queueTime = s.queueTime ∧ (s.updDq l f).store = s.store ∧
    (s.updDq l f).arb = s.arb ∧ (s.updDq l f).tod = s.tod ∧ (s.updDq l f).vp = s.vp ∧ (s.updDq l f).vm = s.vm ∧
    (s.updDq l f).fc = s.fc ∧ (s.updDq l f).fxSet = s.fxSet ∧ (s.updDq l f).fx = s.fx ∧ (s.updDq l f).fw = s.fw ∧
    (s.updDq l f).clSet = s.clSet ∧ (s.updDq l f).cl = s.cl ∧ (s.updDq l f).cw = s.cw ∧ (s.updDq l f).st = s.st ∧
    (s.updDq l f).pc = s.pc :=
  ⟨rfl, rfl, rfl, rfl, rfl, rfl, rfl, rfl, rfl, rfl, rfl, rfl, rfl, rfl, rfl, rfl, rfl, rfl, rfl, rfl, rfl, rfl, rfl, rfl⟩

@[simp] theorem State.updEntry_fields (s : State) (n : Fin 8) (f : QueueEntry → QueueEntry) :
    (s.updEntry n f).pending = s.pending ∧ (s.updEntry n f).standby = s.standby ∧ (s.updEntry n f).pins = s.pins ∧
    (s.updEntry n f).lc = s.lc ∧ (s.updEntry n f).su = s.su ∧ (s.updEntry n f).dq = s.dq ∧
    (s.updEntry n f).queue = s.queue.set n (f s.queue[n]) ∧ (s.updEntry n f).createCounter = s.createCounter ∧
    (s.updEntry n f).finishCounter = s.finishCounter ∧ (s.updEntry n f).queueTime = s.queueTime ∧
    (s.updEntry n f).store = s.store ∧ (s.updEntry n f).arb = s.arb ∧ (s.updEntry n f).tod = s.tod ∧
    (s.updEntry n f).vp = s.vp ∧ (s.updEntry n f).vm = s.vm ∧ (s.updEntry n f).fc = s.fc ∧ (s.updEntry n f).fxSet = s.fxSet ∧
    (s.updEntry n f).fx = s.fx ∧ (s.updEntry n f).fw = s.fw ∧ (s.updEntry n f).clSet = s.clSet ∧ (s.updEntry n f).cl = s.cl ∧
    (s.updEntry n f).cw = s.cw ∧ (s.updEntry n f).st = s.st ∧ (s.updEntry n f).pc = s.pc :=
  ⟨rfl, rfl, rfl, rfl, rfl, rfl, rfl, rfl, rfl, rfl, rfl, rfl, rfl, rfl, rfl, rfl, rfl, rfl, rfl, rfl, rfl, rfl, rfl, rfl⟩

@[simp] theorem State.updStore_fields (s : State) (f : Store → Store) :
    (s.updStore f).pending = s.pending ∧ (s.updStore f).standby = s.standby ∧ (s.updStore f).pins = s.pins ∧
    (s.updStore f).lc = s.lc ∧ (s.updStore f).su = s.su ∧ (s.updStore f).dq = s.dq ∧ (s.updStore f).queue = s.queue ∧
    (s.updStore f).createCounter = s.createCounter ∧ (s.updStore f).finishCounter = s.finishCounter ∧
    (s.updStore f).queueTime = s.queueTime ∧ (s.updStore f).store = f s.store ∧ (s.updStore f).arb = s.arb ∧
    (s.updStore f).tod = s.tod ∧ (s.updStore f).vp = s.vp ∧ (s.updStore f).vm = s.vm ∧ (s.updStore f).fc = s.fc ∧
    (s.updStore f).fxSet = s.fxSet ∧ (s.updStore f).fx = s.fx ∧ (s.updStore f).fw = s.fw ∧ (s.updStore f).clSet = s.clSet ∧
    (s.updStore f).cl = s.cl ∧ (s.updStore f).cw = s.cw ∧ (s.updStore f).st = s.st ∧ (s.updStore f).pc = s.pc :=
  ⟨rfl, rfl, rfl, rfl, rfl, rfl, rfl, rfl, rfl, rfl, rfl, rfl, rfl, rfl, rfl, rfl, rfl, rfl, rfl, rfl, rfl, rfl, rfl, rfl⟩

@[simp] theorem State.updCtx_fields (s : State) (c : CtxId) (f : VoiceCtx → VoiceCtx) :
    (s.updCtx c f).pending = s.pending ∧ (s.updCtx c f).standby = s.standby ∧ (s.updCtx c f).pins = s.pins ∧
    (s.updCtx c f).lc = s.lc ∧ (s.updCtx c f).su = s.su ∧ (s.updCtx c f).dq = s.dq ∧ (s.updCtx c f).queue = s.queue ∧
    (s.updCtx c f).createCounter = s.createCounter ∧ (s.updCtx c f).finishCounter = s.finishCounter ∧
    (s.updCtx c f).queueTime = s.queueTime ∧ (s.updCtx c f).store = s.store ∧ (s.updCtx c f).arb = s.arb ∧
    (s.updCtx c f).tod = s.tod ∧ (s.updCtx c f).vp = s.vp.set c (f (s.vp.get c)) ∧ (s.updCtx c f).vm = s.vm ∧
    (s.updCtx c f).fc = s.fc ∧ (s.updCtx c f).fxSet = s.fxSet ∧ (s.updCtx c f).fx = s.fx ∧ (s.updCtx c f).fw = s.fw ∧
    (s.updCtx c f).clSet = s.clSet ∧ (s.updCtx c f).cl = s.cl ∧ (s.updCtx c f).cw = s.cw ∧ (s.updCtx c f).st = s.st ∧
    (s.updCtx c f).pc = s.pc :=
  ⟨rfl, rfl, rfl, rfl, rfl, rfl, rfl, rfl, rfl, rfl, rfl, rfl, rfl, rfl, rfl, rfl, rfl, rfl, rfl, rfl, rfl, rfl, rfl, rfl⟩

@[simp] theorem State.updVm_fields (s : State) (f : Vm → Vm) :
    (s.updVm f).pending = s.pending ∧ (s.updVm f).standby = s.standby ∧ (s.updVm f).pins = s.pins ∧ (s.updVm f).lc = s.lc ∧
    (s.updVm f).su = s.su ∧ (s.updVm f).dq = s.dq ∧ (s.updVm f).queue = s.queue ∧ (s.updVm f).createCounter = s.createCounter ∧
    (s.updVm f).finishCounter = s.finishCounter ∧ (s.updVm f).queueTime = s.queueTime ∧ (s.updVm f).store = s.store ∧
    (s.updVm f).arb = s.arb ∧ (s.updVm f).tod = s.tod ∧ (s.updVm f).vp = s.vp ∧ (s.updVm f).vm = f s.vm ∧
    (s.updVm f).fc = s.fc ∧ (s.updVm f).fxSet = s.fxSet ∧ (s.updVm f).fx = s.fx ∧ (s.updVm f).fw = s.fw ∧
    (s.updVm f).clSet = s.clSet ∧ (s.updVm f).cl = s.cl ∧ (s.updVm f).cw = s.cw ∧ (s.updVm f).st = s.st ∧
    (s.updVm f).pc = s.pc :=
  ⟨rfl, rfl, rfl, rfl, rfl, rfl, rfl, rfl, rfl, rfl, rfl, rfl, rfl, rfl, rfl, rfl, rfl, rfl, rfl, rfl, rfl, rfl, rfl, rfl⟩

@[simp] theorem State.updSession_fields (s : State) (l : LineId) (f : Session → Session) :
    (s.updSession l f).pending = s.pending ∧ (s.updSession l f).standby = s.standby ∧ (s.updSession l f).pins = s.pins ∧
    (s.updSession l f).lc = s.lc ∧ (s.updSession l f).su = s.su ∧ (s.updSession l f).dq = s.dq ∧
    (s.updSession l f).queue = s.queue ∧ (s.updSession l f).createCounter = s.createCounter ∧
    (s.updSession l f).finishCounter = s.finishCounter ∧ (s.updSession l f).queueTime = s.queueTime ∧
    (s.updSession l f).store = s.store ∧ (s.updSession l f).arb = s.arb ∧ (s.updSession l f).tod = s.tod ∧
    (s.updSession l f).vp = s.vp ∧
    (s.updSession l f).vm = { s.vm with session := s.vm.session.set l (f (s.vm.session.get l)) } ∧
    (s.updSession l f).fc = s.fc ∧ (s.updSession l f).fxSet = s.fxSet ∧ (s.updSession l f).fx = s.fx ∧
    (s.updSession l f).fw = s.fw ∧ (s.updSession l f).clSet = s.clSet ∧ (s.updSession l f).cl = s.cl ∧
    (s.updSession l f).cw = s.cw ∧ (s.updSession l f).st = s.st ∧ (s.updSession l f).pc = s.pc :=
  ⟨rfl, rfl, rfl, rfl, rfl, rfl, rfl, rfl, rfl, rfl, rfl, rfl, rfl, rfl, rfl, rfl, rfl, rfl, rfl, rfl, rfl, rfl, rfl, rfl⟩

@[simp] theorem State.updReport_fields (s : State) (c : CtxId) (f : Report → Report) :
    (s.updReport c f).pending = s.pending ∧ (s.updReport c f).standby = s.standby ∧ (s.updReport c f).pins = s.pins ∧
    (s.updReport c f).lc = s.lc ∧ (s.updReport c f).su = s.su ∧ (s.updReport c f).dq = s.dq ∧
    (s.updReport c f).queue = s.queue ∧ (s.updReport c f).createCounter = s.createCounter ∧
    (s.updReport c f).finishCounter = s.finishCounter ∧ (s.updReport c f).queueTime = s.queueTime ∧
    (s.updReport c f).store = s.store ∧ (s.updReport c f).arb = s.arb ∧ (s.updReport c f).tod = s.tod ∧
    (s.updReport c f).vp = s.vp ∧ (s.updReport c f).vm = { s.vm with report := s.vm.report.set c (f (s.vm.report.get c)) } ∧
    (s.updReport c f).fc = s.fc ∧ (s.updReport c f).fxSet = s.fxSet ∧ (s.updReport c f).fx = s.fx ∧
    (s.updReport c f).fw = s.fw ∧ (s.updReport c f).clSet = s.clSet ∧ (s.updReport c f).cl = s.cl ∧
    (s.updReport c f).cw = s.cw ∧ (s.updReport c f).st = s.st ∧ (s.updReport c f).pc = s.pc :=
  ⟨rfl, rfl, rfl, rfl, rfl, rfl, rfl, rfl, rfl, rfl, rfl, rfl, rfl, rfl, rfl, rfl, rfl, rfl, rfl, rfl, rfl, rfl, rfl, rfl⟩

@[simp] theorem State.setSignal_fields (s : State) (l : LineId) (g : Signal) :
    (s.setSignal l g).pending = s.pending ∧ (s.setSignal l g).standby = s.standby ∧ (s.setSignal l g).pins = s.pins ∧
    (s.setSignal l g).lc = s.lc ∧ (s.setSignal l g).su = s.su ∧ (s.setSignal l g).dq = s.dq ∧
    (s.setSignal l g).queue = s.queue ∧ (s.setSignal l g).createCounter = s.createCounter ∧
    (s.setSignal l g).finishCounter = s.finishCounter ∧ (s.setSignal l g).queueTime = s.queueTime ∧
    (s.setSignal l g).store = s.store ∧ (s.setSignal l g).arb = s.arb ∧ (s.setSignal l g).tod = s.tod ∧
    (s.setSignal l g).vp = s.vp ∧ (s.setSignal l g).vm = { s.vm with signal := s.vm.signal.set l g } ∧
    (s.setSignal l g).fc = s.fc ∧ (s.setSignal l g).fxSet = s.fxSet ∧ (s.setSignal l g).fx = s.fx ∧
    (s.setSignal l g).fw = s.fw ∧ (s.setSignal l g).clSet = s.clSet ∧ (s.setSignal l g).cl = s.cl ∧
    (s.setSignal l g).cw = s.cw ∧ (s.setSignal l g).st = s.st ∧ (s.setSignal l g).pc = s.pc :=
  ⟨rfl, rfl, rfl, rfl, rfl, rfl, rfl, rfl, rfl, rfl, rfl, rfl, rfl, rfl, rfl, rfl, rfl, rfl, rfl, rfl, rfl, rfl, rfl, rfl⟩

@[simp] theorem State.updFc_fields (s : State) (l : LineId) (f : Channel → Channel) :
    (s.updFc l f).pending = s.pending ∧ (s.updFc l f).standby = s.standby ∧ (s.updFc l f).pins = s.pins ∧
    (s.updFc l f).lc = s.lc ∧ (s.updFc l f).su = s.su ∧ (s.updFc l f).dq = s.dq ∧ (s.updFc l f).queue = s.queue ∧
    (s.updFc l f).createCounter = s.createCounter ∧ (s.updFc l f).finishCounter = s.finishCounter ∧
    (s.updFc l f).queueTime = s.queueTime ∧ (s.updFc l f).store = s.store ∧ (s.updFc l f).arb = s.arb ∧
    (s.updFc l f).tod = s.tod ∧ (s.updFc l f).vp = s.vp ∧ (s.updFc l f).vm = s.vm ∧
    (s.updFc l f).fc = s.fc.set l (f (s.fc.get l)) ∧ (s.updFc l f).fxSet = s.fxSet ∧ (s.updFc l f).fx = s.fx ∧
    (s.updFc l f).fw = s.fw ∧ (s.updFc l f).clSet = s.clSet ∧ (s.updFc l f).cl = s.cl ∧ (s.updFc l f).cw = s.cw ∧
    (s.updFc l f).st = s.st ∧ (s.updFc l f).pc = s.pc :=
  ⟨rfl, rfl, rfl, rfl, rfl, rfl, rfl, rfl, rfl, rfl, rfl, rfl, rfl, rfl, rfl, rfl, rfl, rfl, rfl, rfl, rfl, rfl, rfl, rfl⟩

@[simp] theorem State.updFx_fields (s : State) (l : LineId) (f : FaxSession → FaxSession) :
    (s.updFx l f).pending = s.pending ∧ (s.updFx l f).standby = s.standby ∧ (s.updFx l f).pins = s.pins ∧
    (s.updFx l f).lc = s.lc ∧ (s.updFx l f).su = s.su ∧ (s.updFx l f).dq = s.dq ∧ (s.updFx l f).queue = s.queue ∧
    (s.updFx l f).createCounter = s.createCounter ∧ (s.updFx l f).finishCounter = s.finishCounter ∧
    (s.updFx l f).queueTime = s.queueTime ∧ (s.updFx l f).store = s.store ∧ (s.updFx l f).arb = s.arb ∧
    (s.updFx l f).tod = s.tod ∧ (s.updFx l f).vp = s.vp ∧ (s.updFx l f).vm = s.vm ∧ (s.updFx l f).fc = s.fc ∧
    (s.updFx l f).fxSet = s.fxSet ∧ (s.updFx l f).fx = s.fx.set l (f (s.fx.get l)) ∧ (s.updFx l f).fw = s.fw ∧
    (s.updFx l f).clSet = s.clSet ∧ (s.updFx l f).cl = s.cl ∧ (s.updFx l f).cw = s.cw ∧ (s.updFx l f).st = s.st ∧
    (s.updFx l f).pc = s.pc :=
  ⟨rfl, rfl, rfl, rfl, rfl, rfl, rfl, rfl, rfl, rfl, rfl, rfl, rfl, rfl, rfl, rfl, rfl, rfl, rfl, rfl, rfl, rfl, rfl, rfl⟩

@[simp] theorem State.updFw_fields (s : State) (l : LineId) (f : FaxWork → FaxWork) :
    (s.updFw l f).pending = s.pending ∧ (s.updFw l f).standby = s.standby ∧ (s.updFw l f).pins = s.pins ∧
    (s.updFw l f).lc = s.lc ∧ (s.updFw l f).su = s.su ∧ (s.updFw l f).dq = s.dq ∧ (s.updFw l f).queue = s.queue ∧
    (s.updFw l f).createCounter = s.createCounter ∧ (s.updFw l f).finishCounter = s.finishCounter ∧
    (s.updFw l f).queueTime = s.queueTime ∧ (s.updFw l f).store = s.store ∧ (s.updFw l f).arb = s.arb ∧
    (s.updFw l f).tod = s.tod ∧ (s.updFw l f).vp = s.vp ∧ (s.updFw l f).vm = s.vm ∧ (s.updFw l f).fc = s.fc ∧
    (s.updFw l f).fxSet = s.fxSet ∧ (s.updFw l f).fx = s.fx ∧ (s.updFw l f).fw = s.fw.set l (f (s.fw.get l)) ∧
    (s.updFw l f).clSet = s.clSet ∧ (s.updFw l f).cl = s.cl ∧ (s.updFw l f).cw = s.cw ∧ (s.updFw l f).st = s.st ∧
    (s.updFw l f).pc = s.pc :=
  ⟨rfl, rfl, rfl, rfl, rfl, rfl, rfl, rfl, rfl, rfl, rfl, rfl, rfl, rfl, rfl, rfl, rfl, rfl, rfl, rfl, rfl, rfl, rfl, rfl⟩

@[simp] theorem State.updCl_fields (s : State) (f : LinkRec → LinkRec) :
    (s.updCl f).pending = s.pending ∧ (s.updCl f).standby = s.standby ∧ (s.updCl f).pins = s.pins ∧ (s.updCl f).lc = s.lc ∧
    (s.updCl f).su = s.su ∧ (s.updCl f).dq = s.dq ∧ (s.updCl f).queue = s.queue ∧ (s.updCl f).createCounter = s.createCounter ∧
    (s.updCl f).finishCounter = s.finishCounter ∧ (s.updCl f).queueTime = s.queueTime ∧ (s.updCl f).store = s.store ∧
    (s.updCl f).arb = s.arb ∧ (s.updCl f).tod = s.tod ∧ (s.updCl f).vp = s.vp ∧ (s.updCl f).vm = s.vm ∧ (s.updCl f).fc = s.fc ∧
    (s.updCl f).fxSet = s.fxSet ∧ (s.updCl f).fx = s.fx ∧ (s.updCl f).fw = s.fw ∧ (s.updCl f).clSet = s.clSet ∧
    (s.updCl f).cl = f s.cl ∧ (s.updCl f).cw = s.cw ∧ (s.updCl f).st = s.st ∧ (s.updCl f).pc = s.pc :=
  ⟨rfl, rfl, rfl, rfl, rfl, rfl, rfl, rfl, rfl, rfl, rfl, rfl, rfl, rfl, rfl, rfl, rfl, rfl, rfl, rfl, rfl, rfl, rfl, rfl⟩

@[simp] theorem State.updCw_fields (s : State) (f : LinkWork → LinkWork) :
    (s.updCw f).pending = s.pending ∧ (s.updCw f).standby = s.standby ∧ (s.updCw f).pins = s.pins ∧ (s.updCw f).lc = s.lc ∧
    (s.updCw f).su = s.su ∧ (s.updCw f).dq = s.dq ∧ (s.updCw f).queue = s.queue ∧ (s.updCw f).createCounter = s.createCounter ∧
    (s.updCw f).finishCounter = s.finishCounter ∧ (s.updCw f).queueTime = s.queueTime ∧ (s.updCw f).store = s.store ∧
    (s.updCw f).arb = s.arb ∧ (s.updCw f).tod = s.tod ∧ (s.updCw f).vp = s.vp ∧ (s.updCw f).vm = s.vm ∧ (s.updCw f).fc = s.fc ∧
    (s.updCw f).fxSet = s.fxSet ∧ (s.updCw f).fx = s.fx ∧ (s.updCw f).fw = s.fw ∧ (s.updCw f).clSet = s.clSet ∧
    (s.updCw f).cl = s.cl ∧ (s.updCw f).cw = f s.cw ∧ (s.updCw f).st = s.st ∧ (s.updCw f).pc = s.pc :=
  ⟨rfl, rfl, rfl, rfl, rfl, rfl, rfl, rfl, rfl, rfl, rfl, rfl, rfl, rfl, rfl, rfl, rfl, rfl, rfl, rfl, rfl, rfl, rfl, rfl⟩

@[simp] theorem State.updSt_fields (s : State) (p : PortId) (f : Streams → Streams) :
    (s.updSt p f).pending = s.pending ∧ (s.updSt p f).standby = s.standby ∧ (s.updSt p f).pins = s.pins ∧
    (s.updSt p f).lc = s.lc ∧ (s.updSt p f).su = s.su ∧ (s.updSt p f).dq = s.dq ∧ (s.updSt p f).queue = s.queue ∧
    (s.updSt p f).createCounter = s.createCounter ∧ (s.updSt p f).finishCounter = s.finishCounter ∧
    (s.updSt p f).queueTime = s.queueTime ∧ (s.updSt p f).store = s.store ∧ (s.updSt p f).arb = s.arb ∧
    (s.updSt p f).tod = s.tod ∧ (s.updSt p f).vp = s.vp ∧ (s.updSt p f).vm = s.vm ∧ (s.updSt p f).fc = s.fc ∧
    (s.updSt p f).fxSet = s.fxSet ∧ (s.updSt p f).fx = s.fx ∧ (s.updSt p f).fw = s.fw ∧ (s.updSt p f).clSet = s.clSet ∧
    (s.updSt p f).cl = s.cl ∧ (s.updSt p f).cw = s.cw ∧ (s.updSt p f).st = s.st.set p (f (s.st.get p)) ∧
    (s.updSt p f).pc = s.pc :=
  ⟨rfl, rfl, rfl, rfl, rfl, rfl, rfl, rfl, rfl, rfl, rfl, rfl, rfl, rfl, rfl, rfl, rfl, rfl, rfl, rfl, rfl, rfl, rfl, rfl⟩

@[simp] theorem State.updIn_fields (s : State) (p : PortId) (f : InStream → InStream) :
    (s.updIn p f).pending = s.pending ∧ (s.updIn p f).standby = s.standby ∧ (s.updIn p f).pins = s.pins ∧
    (s.updIn p f).lc = s.lc ∧ (s.updIn p f).su = s.su ∧ (s.updIn p f).dq = s.dq ∧ (s.updIn p f).queue = s.queue ∧
    (s.updIn p f).createCounter = s.createCounter ∧ (s.updIn p f).finishCounter = s.finishCounter ∧
    (s.updIn p f).queueTime = s.queueTime ∧ (s.updIn p f).store = s.store ∧ (s.updIn p f).arb = s.arb ∧
    (s.updIn p f).tod = s.tod ∧ (s.updIn p f).vp = s.vp ∧ (s.updIn p f).vm = s.vm ∧ (s.updIn p f).fc = s.fc ∧
    (s.updIn p f).fxSet = s.fxSet ∧ (s.updIn p f).fx = s.fx ∧ (s.updIn p f).fw = s.fw ∧ (s.updIn p f).clSet = s.clSet ∧
    (s.updIn p f).cl = s.cl ∧ (s.updIn p f).cw = s.cw ∧
    (s.updIn p f).st = s.st.set p { s.st.get p with inb := f (s.st.get p).inb } ∧ (s.updIn p f).pc = s.pc :=
  ⟨rfl, rfl, rfl, rfl, rfl, rfl, rfl, rfl, rfl, rfl, rfl, rfl, rfl, rfl, rfl, rfl, rfl, rfl, rfl, rfl, rfl, rfl, rfl, rfl⟩

@[simp] theorem State.updOut_fields (s : State) (p : PortId) (f : OutStream → OutStream) :
    (s.updOut p f).pending = s.pending ∧ (s.updOut p f).standby = s.standby ∧ (s.updOut p f).pins = s.pins ∧
    (s.updOut p f).lc = s.lc ∧ (s.updOut p f).su = s.su ∧ (s.updOut p f).dq = s.dq ∧ (s.updOut p f).queue = s.queue ∧
    (s.updOut p f).createCounter = s.createCounter ∧ (s.updOut p f).finishCounter = s.finishCounter ∧
    (s.updOut p f).queueTime = s.queueTime ∧ (s.updOut p f).store = s.store ∧ (s.updOut p f).arb = s.arb ∧
    (s.updOut p f).tod = s.tod ∧ (s.updOut p f).vp = s.vp ∧ (s.updOut p f).vm = s.vm ∧ (s.updOut p f).fc = s.fc ∧
    (s.updOut p f).fxSet = s.fxSet ∧ (s.updOut p f).fx = s.fx ∧ (s.updOut p f).fw = s.fw ∧ (s.updOut p f).clSet = s.clSet ∧
    (s.updOut p f).cl = s.cl ∧ (s.updOut p f).cw = s.cw ∧
    (s.updOut p f).st = s.st.set p { s.st.get p with outb := f (s.st.get p).outb } ∧ (s.updOut p f).pc = s.pc :=
  ⟨rfl, rfl, rfl, rfl, rfl, rfl, rfl, rfl, rfl, rfl, rfl, rfl, rfl, rfl, rfl, rfl, rfl, rfl, rfl, rfl, rfl, rfl, rfl, rfl⟩

@[simp] theorem State.updPc_fields (s : State) (p : PortId) (f : PortCtl → PortCtl) :
    (s.updPc p f).pending = s.pending ∧ (s.updPc p f).standby = s.standby ∧ (s.updPc p f).pins = s.pins ∧
    (s.updPc p f).lc = s.lc ∧ (s.updPc p f).su = s.su ∧ (s.updPc p f).dq = s.dq ∧ (s.updPc p f).queue = s.queue ∧
    (s.updPc p f).createCounter = s.createCounter ∧ (s.updPc p f).finishCounter = s.finishCounter ∧
    (s.updPc p f).queueTime = s.queueTime ∧ (s.updPc p f).store = s.store ∧ (s.updPc p f).arb = s.arb ∧
    (s.updPc p f).tod = s.tod ∧ (s.updPc p f).vp = s.vp ∧ (s.updPc p f).vm = s.vm ∧ (s.updPc p f).fc = s.fc ∧
    (s.updPc p f).fxSet = s.fxSet ∧ (s.updPc p f).fx = s.fx ∧ (s.updPc p f).fw = s.fw ∧ (s.updPc p f).clSet = s.clSet ∧
    (s.updPc p f).cl = s.cl ∧ (s.updPc p f).cw = s.cw ∧ (s.updPc p f).st = s.st ∧
    (s.updPc p f).pc = s.pc.set p (f (s.pc.get p)) :=
  ⟨rfl, rfl, rfl, rfl, rfl, rfl, rfl, rfl, rfl, rfl, rfl, rfl, rfl, rfl, rfl, rfl, rfl, rfl, rfl, rfl, rfl, rfl, rfl, rfl⟩

end Sys2Proof.Machine
end

