-- ==== Sys2Proof/Laws/Lines.lean ====
section
/-! SUPPORT. What the shared operations of a line do, each in one equation: raising a notice, adding a change flag, asking the Signal Unit
for a mode, moving a line, closing its caller window. A proof cites these and unfolds none of the operations. -/

namespace Sys2Proof.Machine

/-- What a notice does to a port (R204). -/
def heard (n : Notice) (c : PortCtl) : PortCtl :=
  if c.state = .ready ∧ n.cls ∈ c.mask then { c with noticeQueue := enqueueNotice n c.noticeQueue } else c

theorem heard_state (n : Notice) (c : PortCtl) : (heard n c).state = c.state := by unfold heard; split <;> rfl

theorem heard_mask (n : Notice) (c : PortCtl) : (heard n c).mask = c.mask := by unfold heard; split <;> rfl

theorem heard_of_not_ready (n : Notice) {c : PortCtl} (h : c.state ≠ .ready) : heard n c = c := by simp [heard, h]

theorem PerLine.set_mk (v : PerLine α) (a : α) : v.set .line0 a = ⟨a, v.line1⟩ ∧ v.set .line1 a = ⟨v.line0, a⟩ := ⟨rfl, rfl⟩

theorem PerPort.eta (v : PerPort α) : (⟨v.get .cp, v.get .pp⟩ : PerPort α) = v := rfl

theorem isReady_eq (s : State) (p : PortId) : isReady s p = decide ((s.pc.get p).state = .ready) := by
  simp [isReady, BEq.beq]

theorem raiseTo_eq (p : PortId) (n : Notice) (s : State) :
    raiseTo p n s = { s with pc := s.pc.set p (heard n (s.pc.get p)) } := rfl

theorem raiseBoth_eq (n : Notice) (s : State) :
    raiseBoth n s = { s with pc := ⟨heard n s.pc.cp, heard n s.pc.pp⟩ } := rfl

/-- A line record with a flag added to the set of each READY port. -/
def flagRec (cp pp : Bool) (f : ChangeFlag) (r : LineRec) : LineRec :=
  { r with changes := ⟨if cp then r.changes.cp.add f else r.changes.cp, if pp then r.changes.pp.add f else r.changes.pp⟩ }

/-- A flag is added to every READY port's set, with its notice (R2). -/
theorem addChange_eq (l : LineId) (f : ChangeFlag) (s : State) :
    addChange l f s =
      { s with lc := s.lc.set l (flagRec (isReady s .cp) (isReady s .pp) f (s.lc.get l)),
               pc := ⟨heard (flagNotice l f) s.pc.cp, heard (flagNotice l f) s.pc.pp⟩ } := by
  obtain ⟨_, _, _, lc, _, _, _, _, _, _, _, _, _, _, _, _, _, _, _, _, _, _, _, ⟨cp, pp⟩⟩ := s
  by_cases hc : cp.state = .ready <;> by_cases hp : pp.state = .ready <;>
    simp [addChange, addChangeTo, isReady_eq, raiseTo_eq, State.updLc, flagRec, PerPort.get, PerPort.set, hc, hp, heard_of_not_ready]
  exact (PerLine.set_get lc l).symm

/-- A request to a line's Signal Unit: the unit is asked, and its Frame Channel follows it (R29, R43). -/
theorem requestMode_eq (l : LineId) (m : SuMode) (own peer : Fin 6) (loss : Option Nat) (s : State) :
    requestMode l m own peer loss s =
      { s with su := s.su.set l ((s.su.get l).request m own peer loss),
               fc := s.fc.set l (Channel.follow ((s.su.get l).request m own peer loss) (s.fc.get l).bitsStop) } := rfl

theorem setMode_eq (l : LineId) (m : SuMode) (s : State) :
    setMode l m s =
      { s with su := s.su.set l ((s.su.get l).request m 5 5 none),
               fc := s.fc.set l (Channel.follow ((s.su.get l).request m 5 5 none) (s.fc.get l).bitsStop) } := rfl

/-- A line's controller (Table 1-8). -/
theorem setController_eq (l : LineId) (c : Controller) (s : State) :
    setController l c s = if (s.lc.get l).controller = c then s
      else { s with lc := s.lc.set l (flagRec (isReady s .cp) (isReady s .pp) .state { s.lc.get l with controller := c }),
                    pc := ⟨heard (flagNotice l .state) s.pc.cp, heard (flagNotice l .state) s.pc.pp⟩ } := by
  unfold setController
  split
  · rfl
  · simp [addChange_eq, isReady, State.updLc]

/-- A line's caller record (Table 1-8). -/
theorem setCaller_eq (l : LineId) (c : Option CallerRecord) (s : State) :
    setCaller l c s = if (s.lc.get l).caller = c then s
      else { s with lc := s.lc.set l (flagRec (isReady s .cp) (isReady s .pp) .caller { s.lc.get l with caller := c }),
                    pc := ⟨heard (flagNotice l .caller) s.pc.cp, heard (flagNotice l .caller) s.pc.pp⟩ } := by
  unfold setCaller
  split
  · rfl
  · simp [addChange_eq, isReady, State.updLc]

/-- A line moves between states neither of which is FAULT, to one off hook. -/
theorem moveLine_off (l : LineId) {st : LineState} (s : State) (hn : (s.lc.get l).state ≠ st) (ho : st.offHook = true)
    (hf : (s.lc.get l).state ≠ .fault) :
    moveLine l st s = addChange l .state (s.updLc l (LineRec.enter st (s.pins.loop.get l))) := by
  have : st ≠ .fault := by rintro rfl; cases ho
  simp [moveLine, hn, ho, hf, this]

/-- A line moves between states neither of which is FAULT, to one on hook: its unit goes to QUIET (R30). -/
theorem moveLine_on (l : LineId) {st : LineState} (s : State) (hn : (s.lc.get l).state ≠ st) (ho : st.offHook = false)
    (hf : (s.lc.get l).state ≠ .fault) (ht : st ≠ .fault) :
    moveLine l st s = addChange l .state (setMode l .quiet (s.updLc l (LineRec.enter st (s.pins.loop.get l)))) := by
  simp [moveLine, hn, ho, hf, ht]

/-- A line enters or leaves FAULT: FAULT is shown besides (Table 1-8). -/
theorem moveLine_fault (l : LineId) {st : LineState} (s : State) (hn : (s.lc.get l).state ≠ st) (ho : st.offHook = false)
    (hf : (s.lc.get l).state = .fault ∨ st = .fault) :
    moveLine l st s =
      addChange l .fault (addChange l .state (setMode l .quiet (s.updLc l (LineRec.enter st (s.pins.loop.get l))))) := by
  simp [moveLine, hn, ho]
  intro h1 h2
  exact absurd hf (by simp [h1, h2])

/-- A line that is in the state already does not move. -/
theorem moveLine_same (l : LineId) {st : LineState} (s : State) (h : (s.lc.get l).state = st) : moveLine l st s = s := by
  simp [moveLine, h]

end Sys2Proof.Machine
end

