-- ==== Sys2Proof/Laws/Commands.lean ====
section
/-! SUPPORT. How a master's command is taken, in one equation for each case of R201 and R202. -/

namespace Sys2Proof.Machine

/-- Taking the head off an empty command queue changes nothing. -/
theorem dropCommand_of_empty (p : PortId) {s : State} (h : (s.pc.get p).cmdQueue = []) : dropCommand p s = s := by
  have e : ({ s.pc.get p with cmdQueue := (s.pc.get p).cmdQueue.tail } : PortCtl) = s.pc.get p := by
    cases hc : s.pc.get p; rw [hc] at h; simp at h; simp [h]
  simp only [dropCommand, State.updPc, e, PerPort.set_get]

/-- A command at the head of its queue, or one that meets an empty queue, is carried out where the reply queue has room. -/
theorem carryOut_taken (h : CmdHead) (c : Command) (body : State → State × Result × ReplyBody) {s : State}
    (hs : s.standby = false) (hd : (s.pc.get h.port).state ≠ .detached) (hr : (s.pc.get h.port).replyQueue.length < 4)
    (hq : (s.pc.get h.port).cmdQueue = [] ∨ (s.pc.get h.port).cmdQueue.head? = some ⟨h.tag, h.argsOk, c⟩) :
    carryOut h c body s = answerCommand h c body (dropCommand h.port s) := by
  rcases hq with hq | hq
  · have hi : intake h c s = .direct := by simp [intake, hs, hd, hr, hq]
    simp only [carryOut, hi, dropCommand_of_empty _ hq]
  · have hi : intake h c s = .fromQueue := by simp [intake, hs, hd, hr, hq]
    simp only [carryOut, hi]

/-- A command taken in READY with arguments of the right form does what its chapter states, and is answered. -/
theorem carryOut_ready (h : CmdHead) (c : Command) (body : State → State × Result × ReplyBody) {s : State}
    (hs : s.standby = false) (hd : (s.pc.get h.port).state = .ready) (ha : h.argsOk = true)
    (hr : (s.pc.get h.port).replyQueue.length < 4)
    (hq : (s.pc.get h.port).cmdQueue = [] ∨ (s.pc.get h.port).cmdQueue.head? = some ⟨h.tag, h.argsOk, c⟩) :
    carryOut h c body s =
      pushReply h.port ⟨h.tag, (body (dropCommand h.port s)).2.1, (body (dropCommand h.port s)).2.2⟩
        (body (dropCommand h.port s)).1 := by
  have hn : ((dropCommand h.port s).pc.get h.port).state ≠ .attached := by
    simp [dropCommand, hd]
  rw [carryOut_taken h c body hs (by simp [hd]) hr hq]
  simp [answerCommand, hn, ha]

end Sys2Proof.Machine
end

