-- ==== Sys2Proof/Laws/Keeps.lean ====
section
/-! SUPPORT. `Keeps s t`: what every change but a few leaves as it was (the commands waiting, the pins, the clocks, every setting, the
states and queues of the ports), and that a legal state stays legal. One lemma for each update of one record. -/

namespace Sys2Proof.Machine

/-- The store's size and reserve are as before, and a legal store is legal still. -/
structure StoreKeeps (a b : Store) : Prop where
  size : b.nBlocks = a.nBlocks
  reserve : b.reserve = a.reserve
  ok : StoreOk a → StoreOk b

theorem StoreKeeps.refl (a : Store) : StoreKeeps a a := ⟨rfl, rfl, fun h => h⟩

theorem StoreKeeps.trans {a b c : Store} (h : StoreKeeps a b) (k : StoreKeeps b c) : StoreKeeps a c :=
  ⟨k.size.trans h.size, k.reserve.trans h.reserve, fun x => k.ok (h.ok x)⟩

theorem StoreKeeps.ite {p : Prop} [Decidable p] {a b c : Store} (h : p → StoreKeeps a b) (k : ¬p → StoreKeeps a c) :
    StoreKeeps a (if p then b else c) := by
  split
  · exact h ‹_›
  · exact k ‹_›

/-- A port's own settings and queues, all but its notices and its stream packets. -/
def PortSame (a b : PortCtl) : Prop :=
  b.state = a.state ∧ b.mask = a.mask ∧ b.cmdQueue = a.cmdQueue ∧ b.replyQueue = a.replyQueue

/-- Nothing waiting, no pin, no clock, no setting and no port has changed, and a legal state is legal still. -/
structure Keeps (s t : State) : Prop where
  pending : t.pending = s.pending
  standby : t.standby = s.standby
  pins : t.pins = s.pins
  queueTime : t.queueTime = s.queueTime
  tod : t.tod = s.tod
  policy : ∀ l, (t.lc.get l).policy = (s.lc.get l).policy
  cadence : ∀ l, (t.su.get l).cadence = (s.su.get l).cadence
  toneOn : ∀ l, (t.su.get l).toneOnTime = (s.su.get l).toneOnTime
  toneGap : ∀ l, (t.su.get l).toneGapTime = (s.su.get l).toneGapTime
  voice : ∀ c, (t.vp.get c).settings = (s.vp.get c).settings
  access : t.vm.accessCode = s.vm.accessCode
  fax : t.fxSet = s.fxSet
  link : t.clSet = s.clSet
  size : t.store.nBlocks = s.store.nBlocks
  reserve : t.store.reserve = s.store.reserve
  port : ∀ p, PortSame (s.pc.get p) (t.pc.get p)
  legal : Legal s → Legal t

theorem Keeps.refl (s : State) : Keeps s s :=
  ⟨rfl, rfl, rfl, rfl, rfl, fun _ => rfl, fun _ => rfl, fun _ => rfl, fun _ => rfl, fun _ => rfl, rfl, rfl, rfl, rfl, rfl,
    fun _ => ⟨rfl, rfl, rfl, rfl⟩, fun h => h⟩

theorem PortSame.trans {a b c : PortCtl} (h : PortSame a b) (k : PortSame b c) : PortSame a c :=
  ⟨k.1.trans h.1, k.2.1.trans h.2.1, k.2.2.1.trans h.2.2.1, k.2.2.2.trans h.2.2.2⟩

theorem Keeps.trans {s t u : State} (h : Keeps s t) (k : Keeps t u) : Keeps s u :=
  { pending := k.pending.trans h.pending, standby := k.standby.trans h.standby, pins := k.pins.trans h.pins,
    queueTime := k.queueTime.trans h.queueTime, tod := k.tod.trans h.tod, policy := fun l => (k.policy l).trans (h.policy l),
    cadence := fun l => (k.cadence l).trans (h.cadence l), toneOn := fun l => (k.toneOn l).trans (h.toneOn l),
    toneGap := fun l => (k.toneGap l).trans (h.toneGap l), voice := fun c => (k.voice c).trans (h.voice c),
    access := k.access.trans h.access, fax := k.fax.trans h.fax, link := k.link.trans h.link, size := k.size.trans h.size,
    reserve := k.reserve.trans h.reserve, port := fun p => (h.port p).trans (k.port p), legal := fun x => k.legal (h.legal x) }

theorem Keeps.ite {p : Prop} [Decidable p] {s a b : State} (h : p → Keeps s a) (k : ¬p → Keeps s b) :
    Keeps s (if p then a else b) := by
  split
  · exact h ‹_›
  · exact k ‹_›

theorem Keeps.dite {p : Prop} [Decidable p] {s : State} {a : p → State} {b : ¬p → State} (h : ∀ x, Keeps s (a x))
    (k : ∀ x, Keeps s (b x)) : Keeps s (if x : p then a x else b x) := by
  split
  · exact h _
  · exact k _

theorem forEach_keeps {α : Type} {f : α → State → State} (h : ∀ a s, Keeps s (f a s)) (as : List α) (s : State) :
    Keeps s (forEach f as s) := by
  induction as generalizing s with
  | nil => exact .refl s
  | cons a as ih => exact (h a s).trans (ih _)

/-! ## Updates -/

theorem forall_line_set {α : Type} {P : α → Prop} {v : PerLine α} {l : LineId} {a : α} (h : ∀ k, P (v.get k)) (ha : P a) :
    ∀ k, P ((v.set l a).get k) := by
  intro k
  rw [PerLine.get_set]
  split
  · exact ha
  · exact h k

theorem forall_port_set {α : Type} {P : α → Prop} {v : PerPort α} {p : PortId} {a : α} (h : ∀ k, P (v.get k)) (ha : P a) :
    ∀ k, P ((v.set p a).get k) := by
  intro k
  rw [PerPort.get_set]
  split
  · exact ha
  · exact h k

theorem forall_ctx_set {α : Type} {P : α → Prop} {v : PerCtx α} {c : CtxId} {a : α} (h : ∀ k, P (v.get k)) (ha : P a) :
    ∀ k, P ((v.set c a).get k) := by
  intro k
  rw [PerCtx.get_set]
  split
  · exact ha
  · exact h k

theorem line_set_same {α β : Type} {g : α → β} {v : PerLine α} {l : LineId} {a : α} (h : g a = g (v.get l)) (k : LineId) :
    g ((v.set l a).get k) = g (v.get k) := by
  rw [PerLine.get_set]
  split
  · rw [h]; congr; exact Eq.symm ‹_›
  · rfl

theorem ctx_set_same {α β : Type} {g : α → β} {v : PerCtx α} {c : CtxId} {a : α} (h : g a = g (v.get c)) (k : CtxId) :
    g ((v.set c a).get k) = g (v.get k) := by
  rw [PerCtx.get_set]
  split
  · rw [h]; congr; exact Eq.symm ‹_›
  · rfl

theorem port_set_same {v : PerPort PortCtl} {p : PortId} {a : PortCtl} (h : PortSame (v.get p) a) (k : PortId) :
    PortSame (v.get k) ((v.set p a).get k) := by
  rw [PerPort.get_set]
  split
  · rename_i e; rw [e]; exact h
  · exact ⟨rfl, rfl, rfl, rfl⟩

theorem Keeps.updLc {s : State} {l : LineId} {f : LineRec → LineRec} (h : (f (s.lc.get l)).policy = (s.lc.get l).policy)
    (k : LineOk (s.lc.get l) → LineOk (f (s.lc.get l))) : Keeps s (s.updLc l f) :=
  { Keeps.refl s with
    policy := line_set_same (g := LineRec.policy) h
    legal := fun x => { x with line := forall_line_set x.line (k (x.line l)) } }

theorem Keeps.updSu {s : State} {l : LineId} {f : SignalUnit → SignalUnit} (h : (f (s.su.get l)).cadence = (s.su.get l).cadence)
    (k : (f (s.su.get l)).toneOnTime = (s.su.get l).toneOnTime) (g : (f (s.su.get l)).toneGapTime = (s.su.get l).toneGapTime) :
    Keeps s (s.updSu l f) :=
  { Keeps.refl s with
    cadence := line_set_same (g := SignalUnit.cadence) h
    toneOn := line_set_same (g := SignalUnit.toneOnTime) k
    toneGap := line_set_same (g := SignalUnit.toneGapTime) g
    legal := fun x => { x with unit := forall_line_set x.unit (by
      have := x.unit l
      simp only [UnitOk, h, k, g] at this ⊢
      exact this) } }

theorem Keeps.updDq {s : State} {l : LineId} {f : Dialler → Dialler}
    (k : (s.dq.get l).record.string.length ≤ 40 → (f (s.dq.get l)).record.string.length ≤ 40) : Keeps s (s.updDq l f) :=
  { Keeps.refl s with
    legal := fun x => { x with
      dial := forall_line_set (P := fun d : Dialler => d.record.string.length ≤ 40) x.dial (k (x.dial l)) } }

theorem forall_entry_set {P : QueueEntry → Prop} {v : Vector QueueEntry 8} {n : Fin 8} {e : QueueEntry}
    (h : ∀ m : Fin 8, P v[m]) (k : P e) : ∀ m : Fin 8, P (v.set n e)[m] := by
  intro m
  simp only [Fin.getElem_fin, Vector.getElem_set]
  split
  · exact k
  · exact h m

theorem Keeps.updEntry {s : State} {n : Fin 8} {f : QueueEntry → QueueEntry}
    (k : s.queue[n].string.length ≤ 40 → (f s.queue[n]).string.length ≤ 40) : Keeps s (s.updEntry n f) :=
  { Keeps.refl s with
    legal := fun x => { x with
      call := forall_entry_set (P := fun e => e.string.length ≤ 40) x.call (k (x.call n)) } }

theorem Keeps.updStore {s : State} {f : Store → Store} (h : StoreKeeps s.store (f s.store)) : Keeps s (s.updStore f) :=
  { Keeps.refl s with
    size := h.size
    reserve := h.reserve
    legal := fun x => { x with store := h.ok x.store, ctx := fun c => (congrArg (CtxOk · (s.vp.get c)) h.size) ▸ x.ctx c } }

theorem Keeps.updCtx {s : State} {c : CtxId} {f : VoiceCtx → VoiceCtx} (h : (f (s.vp.get c)).settings = (s.vp.get c).settings)
    (k : (∀ b ∈ (s.vp.get c).other.block, b < s.store.nBlocks) → ∀ b ∈ (f (s.vp.get c)).other.block, b < s.store.nBlocks) :
    Keeps s (s.updCtx c f) :=
  { Keeps.refl s with
    voice := ctx_set_same (g := VoiceCtx.settings) h
    legal := fun x => { x with ctx := forall_ctx_set x.ctx ⟨h ▸ (x.ctx c).1, k (x.ctx c).2⟩ } }

theorem Keeps.updVm {s : State} {f : Vm → Vm} (h : (f s.vm).accessCode = s.vm.accessCode)
    (k : (∀ l, SessionOk (s.vm.session.get l)) → ∀ l, SessionOk ((f s.vm).session.get l)) : Keeps s (s.updVm f) :=
  { Keeps.refl s with
    access := h
    legal := fun x => { x with access := h ▸ x.access, session := k x.session } }

theorem Keeps.updSession {s : State} {l : LineId} {f : Session → Session}
    (k : SessionOk (s.vm.session.get l) → SessionOk (f (s.vm.session.get l))) : Keeps s (s.updSession l f) :=
  { Keeps.refl s with
    legal := fun x => { x with session := forall_line_set (P := SessionOk) x.session (k (x.session l)) } }

theorem Keeps.updReport {s : State} {c : CtxId} {f : Report → Report} : Keeps s (s.updReport c f) :=
  { Keeps.refl s with legal := fun x => { x with } }

theorem Keeps.setSignal {s : State} {l : LineId} {g : Signal} : Keeps s (s.setSignal l g) :=
  { Keeps.refl s with legal := fun x => { x with } }

theorem Keeps.updFc {s : State} {l : LineId} {f : Channel → Channel} (k : ChanOk (s.fc.get l) → ChanOk (f (s.fc.get l))) :
    Keeps s (s.updFc l f) :=
  { Keeps.refl s with legal := fun x => { x with chan := forall_line_set x.chan (k (x.chan l)) } }

theorem Keeps.updFx {s : State} {l : LineId} {f : FaxSession → FaxSession} : Keeps s (s.updFx l f) :=
  { Keeps.refl s with legal := fun x => { x with } }

theorem Keeps.updFw {s : State} {l : LineId} {f : FaxWork → FaxWork} : Keeps s (s.updFw l f) :=
  { Keeps.refl s with legal := fun x => { x with } }

theorem Keeps.updCl {s : State} {f : LinkRec → LinkRec} (k : LinkOk s.cl → LinkOk (f s.cl)) : Keeps s (s.updCl f) :=
  { Keeps.refl s with legal := fun x => { x with link := k x.link } }

theorem Keeps.updCw {s : State} {f : LinkWork → LinkWork} : Keeps s (s.updCw f) :=
  { Keeps.refl s with legal := fun x => { x with } }

theorem Keeps.updIn {s : State} {p : PortId} {f : InStream → InStream} (k : InOk (s.st.get p).inb → InOk (f (s.st.get p).inb)) :
    Keeps s (s.updIn p f) :=
  { Keeps.refl s with
    legal := fun x => { x with
      inb := forall_port_set (P := fun t : Streams => InOk t.inb) x.inb (k (x.inb p))
      outb := forall_port_set (P := fun t : Streams => OutOk t.outb) x.outb (x.outb p) } }

theorem Keeps.updOut {s : State} {p : PortId} {f : OutStream → OutStream}
    (k : OutOk (s.st.get p).outb → OutOk (f (s.st.get p).outb)) : Keeps s (s.updOut p f) :=
  { Keeps.refl s with
    legal := fun x => { x with
      inb := forall_port_set (P := fun t : Streams => InOk t.inb) x.inb (x.inb p)
      outb := forall_port_set (P := fun t : Streams => OutOk t.outb) x.outb (k (x.outb p)) } }

theorem Keeps.updPc {s : State} {p : PortId} {f : PortCtl → PortCtl} (h : PortSame (s.pc.get p) (f (s.pc.get p)))
    (k : PortOk (s.pc.get p) → PortOk (f (s.pc.get p))) : Keeps s (s.updPc p f) :=
  { Keeps.refl s with
    port := port_set_same h
    legal := fun x => { x with port := forall_port_set x.port (k (x.port p)) } }

/-- Noting a burst in its client's record changes the four marks alone (R87). -/
theorem markBurst_eq (v : Service) (on : Bool) (s : State) :
    markBurst v on s = { s with vp := (markBurst v on s).vp, fw := (markBurst v on s).fw, st := (markBurst v on s).st } := by
  rcases v with _ | c | ⟨_, d⟩
  · rfl
  · cases c <;> rfl
  · cases d <;> rfl

end Sys2Proof.Machine
end

