-- ==== Sys2Proof/Laws/KeepsChannel.lean ====
section
/-! SUPPORT. Every operation of the Frame Channel keeps a legal channel legal: its queues within four records, its limit and counts
within Table 7-1. -/

namespace Sys2Proof.Machine

theorem bump_le (n : Nat) (_h : n ≤ 65535) : bump n ≤ 65535 := by unfold bump; split <;> omega

theorem countTx_ok (v : TxVerdict) {k : ChanCounts} (h : CountsOk k) : CountsOk (countTx v k) := by
  obtain ⟨a, b, c, d, e, f, g, i, j, m⟩ := h
  cases v <;> exact ⟨by first | exact bump_le _ a | exact a, by first | exact bump_le _ b | exact b,
    by first | exact bump_le _ c | exact c, d, e, f, g, i, j, m⟩

theorem countRx_ok (v : RxVerdict) {k : ChanCounts} (h : CountsOk k) : CountsOk (countRx v k) := by
  obtain ⟨a, b, c, d, e, f, g, i, j, m⟩ := h
  cases v <;> exact ⟨a, b, c, by first | exact bump_le _ d | exact d, by first | exact bump_le _ e | exact e,
    by first | exact bump_le _ f | exact f, by first | exact bump_le _ g | exact g, by first | exact bump_le _ i | exact i,
    by first | exact bump_le _ j | exact j, m⟩

theorem Channel.report_ok (v : TxVerdict) (r : FrameRec) {c : Channel} (h : ChanOk c) : ChanOk (c.report v r) :=
  ⟨h.1, h.2.1, h.2.2.1, h.2.2.2.1, countTx_ok v h.2.2.2.2⟩

theorem Channel.reportAll_ok (v : TxVerdict) (rs : List FrameRec) {c : Channel} (h : ChanOk c) :
    ChanOk (Channel.reportAll v rs c) := by
  induction rs generalizing c with
  | nil => exact h
  | cons r rs ih => exact ih (c.report_ok v r h)

theorem Channel.withTx_ok {c : Channel} (q : List FrameRec) (hq : q.length ≤ 4) (h : ChanOk c) : ChanOk { c with txQueue := q } :=
  ⟨hq, h.2.1, h.2.2.1, h.2.2.2.1, h.2.2.2.2⟩

theorem Channel.finishHead_ok (v : TxVerdict) {c : Channel} (h : ChanOk c) : ChanOk (c.finishHead v) := by
  unfold Channel.finishHead
  split
  · exact h
  · next r rs hq => exact Channel.report_ok v r (Channel.withTx_ok rs (by have := h.1; rw [hq] at this; simp at this; omega) h)

theorem Channel.discardAll_ok {c : Channel} (h : ChanOk c) : ChanOk c.discardAll :=
  Channel.reportAll_ok _ _ (Channel.withTx_ok [] (by simp) h)

theorem Channel.discardBehind_ok {c : Channel} (h : ChanOk c) : ChanOk c.discardBehind :=
  Channel.reportAll_ok _ _ (Channel.withTx_ok _ (by have := h.1; rw [List.length_take]; omega) h)

theorem Channel.bind_ok (o : ChanOwner) (a : Byte) (f : AddrFilter) (n : Nat) (fill : Fill) {c : Channel} :
    ChanOk (c.bind o a f n fill) := by
  refine ⟨by simp [Channel.bind], by simp [Channel.bind], ?_, ?_, ?_⟩
  · simp only [Channel.bind, clampNat]; split <;> (try split) <;> omega
  · simp only [Channel.bind, clampNat]; split <;> (try split) <;> omega
  · simp [Channel.bind, CountsOk, ChanCounts.zero]

theorem Channel.unbind_ok {c : Channel} (h : ChanOk c) : ChanOk c.unbind :=
  have d := Channel.discardAll_ok h
  ⟨d.1, by simp [Channel.unbind], d.2.2.1, d.2.2.2.1, d.2.2.2.2⟩

theorem Channel.startTx_ok (hold : Bool) (m : ChanMode) {c : Channel} (h : ChanOk c) : ChanOk (c.startTx hold m) := h

theorem Channel.becomeOff_ok (hold : Bool) {c : Channel} (h : ChanOk c) : ChanOk (c.becomeOff hold) := by
  unfold Channel.becomeOff
  split
  · exact h
  · exact Channel.startTx_ok hold _ h

theorem Channel.disableTx_ok {c : Channel} (h : ChanOk c) : ChanOk c.disableTx := by
  unfold Channel.disableTx
  split <;> first | exact h | exact Channel.discardBehind_ok h | exact Channel.discardAll_ok h

theorem Channel.enableTx_ok (hold : Bool) (m : ChanMode) {c : Channel} (h : ChanOk c) : ChanOk (c.enableTx hold m) := by
  have d := Channel.disableTx_ok h
  unfold Channel.enableTx
  split
  · exact Channel.startTx_ok hold m h
  · split
    · split <;> exact h
    · dsimp only
      split
      · exact Channel.startTx_ok hold m d
      · exact d

theorem Channel.pause_ok {c : Channel} (h : ChanOk c) : ChanOk c.pause := by
  have f := Channel.finishHead_ok .sentAborted h
  unfold Channel.pause
  split
  · exact h
  · exact h
  · exact h
  · split
    · exact f
    · exact h
  · exact Channel.becomeOff_ok true f

theorem Channel.openFrame_ok {c : Channel} (h : ChanOk c) : ChanOk c.openFrame := by
  unfold Channel.openFrame
  split <;> exact h

theorem Channel.ready_ok {c : Channel} (h : ChanOk c) : ChanOk c.ready := by
  unfold Channel.ready
  split
  · exact Channel.openFrame_ok h
  · exact h

theorem Channel.ownerAbort_ok {c : Channel} (h : ChanOk c) : ChanOk c.ownerAbort := by
  have d := Channel.discardAll_ok h
  unfold Channel.ownerAbort
  split
  · exact h
  · exact Channel.becomeOff_ok false d
  · exact d
  · exact h
  · exact d

theorem Channel.configure_ok (a : Option Byte) (f : Option AddrFilter) (n : Option Nat) (i : Option Fill) {c : Channel} (h : ChanOk c) :
    ChanOk (c.configure a f n i) := by
  unfold Channel.configure
  split
  · exact h
  · refine ⟨h.1, h.2.1, ?_, ?_, h.2.2.2.2⟩ <;>
    · cases n with
      | none => simpa using by first | exact h.2.2.1 | exact h.2.2.2.1
      | some k => simp only [Option.map_some, Option.getD_some, clampNat]; split <;> (try split) <;> omega

/-- What the channel answers to a record, all four cases at once (R136). -/
theorem Channel.offerResult_cases (r : FrameRec) (c : Channel) :
    (c.offerResult r = .wrongState ∧ (c.txMode ≠ .framed ∨ c.txState = .off ∨ c.txState = .draining)) ∨
    (c.txMode = .framed ∧ (c.txState = .idle ∨ c.txState = .sending ∨ c.txState = .held) ∧
      ((c.offerResult r = .tooLong ∧ contentFits r.content = false) ∨
       (contentFits r.content = true ∧
         ((c.offerResult r = .queueFull ∧ 4 ≤ c.txQueue.length) ∨ (c.offerResult r = .taken ∧ c.txQueue.length < 4))))) := by
  unfold Channel.offerResult
  split
  · next h => exact .inl ⟨rfl, h⟩
  · next h =>
    simp only [not_or, ne_eq, Decidable.not_not] at h
    refine .inr ⟨h.1, by cases hs : c.txState <;> simp_all, ?_⟩
    split
    · next hf => exact .inl ⟨rfl, hf⟩
    · next hf => exact .inr ⟨by simpa using hf, by split <;> simp_all⟩

/-- A record is taken exactly as R136 says. -/
theorem Channel.takes_iff (r : FrameRec) (c : Channel) :
    c.takes r = true ↔ c.txMode = .framed ∧ (c.txState = .idle ∨ c.txState = .sending ∨ c.txState = .held) ∧
      c.txQueue.length < 4 ∧ contentFits r.content = true := by
  unfold Channel.takes
  rcases c.offerResult_cases r with ⟨h, h1⟩ | ⟨hm, hs, ⟨h, hf⟩ | ⟨hf, ⟨h, hl⟩ | ⟨h, hl⟩⟩⟩ <;> rw [h]
  · have : ∀ (a : TxState), a = .off ∨ a = .draining → ¬ (a = .idle ∨ a = .sending ∨ a = .held) := by
      intro a; cases a <;> simp
    rcases h1 with h1 | h1
    · simp [h1]
    · simp [this _ h1]
  · simp [hf]
  · simp [Nat.not_lt.mpr hl]
  · simp [hm, hs, hf, hl]

/-- A content fits exactly when it declares at most 297 octets (R136). -/
theorem contentFits_iff (x : Content) : contentFits x = true ↔ contentLength x ≤ 297 := by
  cases x <;> simp [contentFits, contentLength, Config.controlOctets, Nat.min_le_left]

theorem Channel.offer_ok (r : FrameRec) {c : Channel} (h : ChanOk c) : ChanOk (c.offer r) := by
  unfold Channel.offer
  split
  · next ht =>
    have ht := ((c.takes_iff r).mp ht).2.2.1
    exact ⟨by simp only [List.length_append, List.length_singleton]; omega, h.2.1, h.2.2.1, h.2.2.2.1, h.2.2.2.2⟩
  · exact h

theorem Channel.frameEnds_ok (v : TxVerdict) {c : Channel} (h : ChanOk c) : ChanOk (c.frameEnds v) := by
  have f := Channel.finishHead_ok v h
  unfold Channel.frameEnds
  dsimp only
  split
  · exact Channel.becomeOff_ok false f
  · exact f

theorem Channel.frameSent_ok (bits : List Bool) {c : Channel} (h : ChanOk c) : ChanOk (c.frameSent bits) :=
  Channel.frameEnds_ok .sent h

theorem Channel.underrun_ok {c : Channel} (h : ChanOk c) : ChanOk c.underrun := Channel.frameEnds_ok .sentAborted h

theorem Channel.runDry_ok {c : Channel} (h : ChanOk c) : ChanOk c.runDry := by
  unfold Channel.runDry
  split <;> exact h

theorem Channel.sendOctets_ok (bits : List Bool) {c : Channel} (h : ChanOk c) : ChanOk (c.sendOctets bits) := h

theorem Channel.complete_ok (r : RxRecord) {c : Channel} (h : ChanOk c) : ChanOk (c.complete r) := by
  unfold Channel.complete
  dsimp only
  split
  · next hl => exact ⟨h.1, by simp only [List.length_append, List.length_singleton]; omega, h.2.2.1, h.2.2.2.1, countRx_ok _ h.2.2.2.2⟩
  · obtain ⟨a, b, c', d, e, f, g, i, j, m⟩ := h.2.2.2.2
    exact ⟨h.1, h.2.1, h.2.2.1, h.2.2.2.1, a, b, c', d, e, f, g, i, j, bump_le _ m⟩

theorem Channel.endDiscard_ok {c : Channel} (h : ChanOk c) : ChanOk c.endDiscard := by
  unfold Channel.endDiscard
  split
  · exact Channel.complete_ok _ h
  · exact h

theorem Channel.bitsStop_ok {c : Channel} (h : ChanOk c) : ChanOk c.bitsStop := by
  unfold Channel.bitsStop
  split
  · exact h
  · exact h
  · exact Channel.complete_ok _ h
  · exact Channel.endDiscard_ok h
  · exact h

theorem Channel.disableRx_ok {c : Channel} (h : ChanOk c) : ChanOk c.disableRx := h

theorem Channel.enableRx_ok (m : ChanMode) {c : Channel} (h : ChanOk c) : ChanOk (c.enableRx m) := by
  unfold Channel.enableRx
  split <;> exact h

theorem Channel.flag_ok {c : Channel} (h : ChanOk c) : ChanOk c.flag := by
  unfold Channel.flag
  split
  · exact h
  · exact Channel.endDiscard_ok h
  · exact h

theorem Channel.firstBit_ok {c : Channel} (h : ChanOk c) : ChanOk c.firstBit := by
  unfold Channel.firstBit
  split <;> exact h

theorem Channel.address_ok (a : Byte) {c : Channel} (h : ChanOk c) : ChanOk (c.address a) := by
  unfold Channel.address
  split
  · split <;> exact h
  · exact h

theorem Channel.overLimit_ok {c : Channel} (h : ChanOk c) : ChanOk c.overLimit := by
  unfold Channel.overLimit
  split <;> exact h

theorem Channel.closingFlag_ok (f : LineFrame) {c : Channel} (h : ChanOk c) : ChanOk (c.closingFlag f) := by
  unfold Channel.closingFlag
  split
  · exact h
  · exact Channel.endDiscard_ok h
  · split
    · exact h
    · split
      · exact h
      · exact Channel.complete_ok _ h
  · split
    · exact h
    · exact Channel.complete_ok _ h
  · exact h

theorem Channel.abortSeen_ok {c : Channel} (h : ChanOk c) : ChanOk c.abortSeen := by
  unfold Channel.abortSeen
  split
  · exact h
  · exact Channel.complete_ok _ h
  · exact Channel.endDiscard_ok h
  · exact h

theorem Channel.follow_ok (u : SignalUnit) {c : Channel} (h : ChanOk c) : ChanOk (c.follow u) := by
  unfold Channel.follow
  dsimp only
  split
  · split
    · exact Channel.pause_ok h
    · exact Channel.pause_ok (Channel.bitsStop_ok h)
  · split
    · exact Channel.ready_ok h
    · exact Channel.ready_ok (Channel.bitsStop_ok h)

end Sys2Proof.Machine
end

