-- ==== Sys2Proof/Laws/Memory.lean ====
section
/-! SUPPORT. The message DRAM: a byte read after a write is the byte written, every other byte reads as before, and every write keeps
the canonical form. -/

namespace Sys2Proof.Machine

/-! ## Reading after writing -/

theorem memFrom_above {lo : Option Nat} {m : List Host.Cell} (h : memFrom lo m = true) : ∀ a, lo = some a → ∀ c ∈ m, a < c.1 := by
  induction m generalizing lo with
  | nil => intro a _ c hc; cases hc
  | cons x m ih =>
    obtain ⟨b, v⟩ := x
    intro a ha c hc
    subst ha
    simp only [memFrom, Bool.and_eq_true, decide_eq_true_eq] at h
    rcases List.mem_cons.1 hc with rfl | hc
    · exact h.1.1
    · exact Nat.lt_trans h.1.1 (ih h.2 b rfl c hc)

/-- A byte no cell lists reads as the fill. -/
theorem memRead_absent {a : Nat} {m : List Host.Cell} (h : ∀ c ∈ m, c.1 ≠ a) : memRead a m = Config.dramFill := by
  induction m with
  | nil => rfl
  | cons x m ih =>
    obtain ⟨b, v⟩ := x
    have hb : a ≠ b := fun e => h (b, v) (by simp) e.symm
    simp only [memRead, if_neg hb]
    exact ih fun c hc => h c (by simp [hc])

/-- What a byte reads as after a write, in a memory in canonical form. -/
theorem memRead_memWrite {lo : Option Nat} {m : List Host.Cell} (h : memFrom lo m = true) (a : Nat) (v : Byte) (x : Nat) :
    memRead x (memWrite a v m) = if x = a then v else memRead x m := by
  induction m generalizing lo with
  | nil =>
    simp only [memWrite]
    split
    · next hv => split <;> simp [memRead, hv]
    · simp [memRead]
  | cons c m ih =>
    obtain ⟨b, w⟩ := c
    simp only [memFrom, Bool.and_eq_true] at h
    have hab : ∀ c ∈ m, b < c.1 := memFrom_above h.2 b rfl
    simp only [memWrite]
    split
    · next hlt =>
      split
      · next hv =>
        split
        · next hx =>
          rw [memRead_absent (by
            intro c hc
            rcases List.mem_cons.1 hc with rfl | hc
            · exact fun e => by simp only at e; omega
            · have := hab c hc; omega), hv]
        · rfl
      · simp only [memRead]
    · split
      · next hge heq =>
        subst heq
        split
        · next hv =>
          split
          · next hx => rw [memRead_absent (fun c hc => by have := hab c hc; omega), hv]
          · next hx => simp only [memRead, if_neg hx]
        · next hv => simp only [memRead]; split <;> rfl
      · next hge hne =>
        simp only [memRead]
        split
        · next hx => rw [if_neg (by omega)]
        · exact ih h.2

/-! ## The canonical form -/

theorem memFrom_weaken {a b : Nat} {m : List Host.Cell} (hab : a ≤ b) (h : memFrom (some b) m = true) :
    memFrom (some a) m = true := by
  cases m with
  | nil => rfl
  | cons c m =>
    obtain ⟨x, v⟩ := c
    simp only [memFrom, Bool.and_eq_true, decide_eq_true_eq] at h ⊢
    exact ⟨⟨by omega, h.1.2⟩, h.2⟩

theorem memFrom_none {lo : Option Nat} {m : List Host.Cell} (h : memFrom lo m = true) : memFrom none m = true := by
  cases m with
  | nil => rfl
  | cons c m =>
    obtain ⟨x, v⟩ := c
    simp only [memFrom, Bool.and_eq_true] at h ⊢
    exact ⟨⟨trivial, h.1.2⟩, h.2⟩

theorem memFrom_memWrite {lo : Option Nat} {m : List Host.Cell} (h : memFrom lo m = true) (a : Nat) (v : Byte)
    (ha : ∀ b, lo = some b → b < a) : memFrom lo (memWrite a v m) = true := by
  induction m generalizing lo with
  | nil =>
    simp only [memWrite]
    split
    · rfl
    · next hv =>
      cases lo with
      | none => simp [memFrom, hv]
      | some b => simp [memFrom, hv, ha b rfl]
  | cons c m ih =>
    obtain ⟨b, w⟩ := c
    have h0 := h
    simp only [memFrom, Bool.and_eq_true] at h
    simp only [memWrite]
    split
    · next hlt =>
      split
      · exact h0
      · next hv =>
        have hr : memFrom (some a) ((b, w) :: m) = true := by simp [memFrom, hlt, h.2]; simpa using h.1.2
        cases lo with
        | none => simp only [memFrom, Bool.and_eq_true] at hr ⊢; simp [hv]; simpa [memFrom] using hr
        | some k => simp only [memFrom, Bool.and_eq_true] at hr ⊢; simp [hv, ha k rfl]; simpa [memFrom] using hr
    · split
      · next hge heq =>
        subst heq
        split
        · cases lo with
          | none => exact memFrom_none h.2
          | some k => exact memFrom_weaken (Nat.le_of_lt (ha k rfl)) h.2
        · next hv =>
          cases lo with
          | none => simp [memFrom, hv, h.2]
          | some k => simp [memFrom, hv, h.2, ha k rfl]
      · next hge hne =>
        have := ih h.2 (fun k e => by cases e; omega)
        simp only [memFrom, Bool.and_eq_true]
        exact ⟨h.1, this⟩

/-- Writing a byte keeps the canonical form. -/
theorem memWrite_wf {m : List Host.Cell} (h : Memory.wf m = true) (a : Nat) (v : Byte) : Memory.wf (memWrite a v m) = true :=
  memFrom_memWrite h a v (fun _ e => by cases e)

/-- Writing consecutive bytes keeps the canonical form. -/
theorem memWriteBytes_wf {m : List Host.Cell} (h : Memory.wf m = true) (a : Nat) (bs : List Byte) :
    Memory.wf (memWriteBytes a bs m) = true := by
  induction bs generalizing a m with
  | nil => exact h
  | cons b bs ih => exact ih (memWrite_wf h a b) (a + 1)

/-- Writing content bytes keeps the canonical form. -/
theorem writeContent_wf {m : List Host.Cell} (h : Memory.wf m = true) (blocks : List BlockRef) (off : Nat) (bs : List Byte) :
    Memory.wf (writeContent blocks off bs m) = true := by
  induction bs generalizing off m with
  | nil => exact h
  | cons b bs ih =>
    simp only [writeContent]
    split
    · exact ih (memWrite_wf h _ b) (off + 1)
    · exact ih h (off + 1)

/-- Writing a block's sample count keeps the canonical form. -/
theorem putCount_wf {m : List Host.Cell} (h : Memory.wf m = true) (b : BlockRef) : Memory.wf (putCount b m) = true :=
  memWriteBytes_wf h _ _

/-- A burst of a staging buffer keeps the canonical form. -/
theorem writeBurst_wf {m : List Host.Cell} (h : Memory.wf m = true) (b : StageBuf) : Memory.wf (writeBurst b m) = true := by
  unfold writeBurst
  split
  · exact h
  · exact memWriteBytes_wf h _ _

/-- Writes of content one after another keep the canonical form. -/
theorem foldl_writeContent_wf {m : List Host.Cell} (h : Memory.wf m = true) (blocks : List BlockRef) (ws : List (Nat × List Byte)) :
    Memory.wf (ws.foldl (fun m x => writeContent blocks x.1 x.2 m) m) = true := by
  induction ws generalizing m with
  | nil => exact h
  | cons w ws ih => exact ih (writeContent_wf h blocks w.1 w.2)

/-- The memory that lists nothing, as after reset, is in canonical form. -/
theorem wf_nil : Memory.wf [] = true := rfl

/-! ## Consecutive bytes -/

/-- What a byte reads as after consecutive bytes are written from `a`. -/
theorem memRead_memWriteBytes {m : List Host.Cell} (h : Memory.wf m = true) (a : Nat) (bs : List Byte) (x : Nat) :
    memRead x (memWriteBytes a bs m) = if h : a ≤ x ∧ x - a < bs.length then bs[x - a] else memRead x m := by
  induction bs generalizing a m with
  | nil => simp [memWriteBytes]
  | cons b bs ih =>
    rw [memWriteBytes, ih (memWrite_wf h a b) (a + 1), memRead_memWrite h a b x]
    by_cases hx : a + 1 ≤ x ∧ x - (a + 1) < bs.length
    · rw [dif_pos hx, dif_pos (by simp; omega)]
      have : x - a = (x - (a + 1)) + 1 := by omega
      simp [this]
    · rw [dif_neg hx]
      by_cases he : x = a
      · subst he; simp
      · rw [if_neg he, dif_neg (by simp; omega)]

end Sys2Proof.Machine
end

