-- ==== Sys2Proof/Laws/KeepsStore.lean ====
section
/-! SUPPORT. Every operation of the Message Store keeps the store's size and reserve, and keeps a legal store legal. -/

namespace Sys2Proof.Machine

/-! ## The directory and the free list -/

theorem dir_set_blocks {st : Store} {n : Fin 128} {e : DirEntry} (h : ∀ k : Fin 128, ∀ b ∈ st.dir[k].blocks, b.num < st.nBlocks)
    (he : ∀ b ∈ e.blocks, b.num < st.nBlocks) : ∀ k : Fin 128, ∀ b ∈ (st.dir.set n e)[k].blocks, b.num < st.nBlocks := by
  intro k b hb
  have hk : (st.dir.set n e)[k] = if n.val = k.val then e else st.dir[k] := by
    simp only [Fin.getElem_fin]
    exact Vector.getElem_set ..
  rw [hk] at hb
  split at hb
  · exact he b hb
  · exact h k b hb

/-- A change of one entry whose blocks still lie in the store. -/
theorem updDir_ok {n : Fin 128} {f : DirEntry → DirEntry} {st : Store}
    (h : StoreOk st → ∀ b ∈ (f st.dir[n]).blocks, b.num < st.nBlocks) : StoreKeeps st (st.updDir n f) :=
  ⟨rfl, rfl, fun x => ⟨x.1, x.2.1, x.2.2.1, x.2.2.2.1, dir_set_blocks x.2.2.2.2.1 (h x), x.2.2.2.2.2⟩⟩

/-- A change of one entry that leaves its blocks as they are. -/
theorem updDir_same {n : Fin 128} {f : DirEntry → DirEntry} {st : Store} (h : (f st.dir[n]).blocks = st.dir[n].blocks) :
    StoreKeeps st (st.updDir n f) :=
  updDir_ok fun x b hb => x.2.2.2.2.1 n b (h ▸ hb)

theorem giveBlocks_keeps {bs : List Nat} {st : Store} (h : StoreOk st → ∀ b ∈ bs, b < st.nBlocks) :
    StoreKeeps st (st.giveBlocks bs) :=
  ⟨rfl, rfl, fun x => ⟨x.1, x.2.1, x.2.2.1, fun b hb => by
    rcases List.mem_append.1 hb with hb | hb
    · exact x.2.2.2.1 b hb
    · exact h x b hb, x.2.2.2.2.1, x.2.2.2.2.2⟩⟩

theorem takeBlock_keeps {st : Store} {r : Nat × Store} (h : st.takeBlock = some r) : StoreKeeps st r.2 := by
  unfold Store.takeBlock at h
  split at h
  · cases h
    exact ⟨rfl, rfl, fun x => ⟨x.1, x.2.1, by have := x.2.2.1; simp only; omega, x.2.2.2.1, x.2.2.2.2.1, x.2.2.2.2.2⟩⟩
  · split at h
    · cases h
    · next b bs hr =>
      cases h
      exact ⟨rfl, rfl, fun x => ⟨x.1, x.2.1, x.2.2.1, fun c hc => x.2.2.2.1 c (by rw [hr]; simp [hc]), x.2.2.2.2.1, x.2.2.2.2.2⟩⟩

/-- A block that is taken lies in the store. -/
theorem takeBlock_inside {st : Store} {r : Nat × Store} (h : st.takeBlock = some r) (x : StoreOk st) : r.1 < st.nBlocks := by
  unfold Store.takeBlock at h
  split at h
  · cases h; assumption
  · split at h
    · cases h
    · next b bs hr => cases h; exact x.2.2.2.1 b (by rw [hr]; simp)

theorem allocate_keeps {n : Fin 128} {st t : Store} (h : st.allocate n = some t) : StoreKeeps st t := by
  unfold Store.allocate at h
  cases hb : st.takeBlock with
  | none => rw [hb] at h; cases h
  | some r =>
    rw [hb] at h
    cases h
    have hk := takeBlock_keeps hb
    refine ⟨hk.size, hk.reserve, fun x => ?_⟩
    refine (updDir_ok (fun y b hb' => ?_)).ok (hk.ok x)
    rcases List.mem_append.1 hb' with hb' | hb'
    · exact y.2.2.2.2.1 n b hb'
    · have := takeBlock_inside hb x
      simp only [List.mem_singleton] at hb'
      subst hb'
      rw [hk.size]
      exact this

theorem allocateUnbound_keeps {n : Fin 128} {st t : Store} (h : st.allocateUnbound n = some t) : StoreKeeps st t := by
  unfold Store.allocateUnbound at h
  split at h
  · exact allocate_keeps h
  · cases h

theorem allocateVoice_keeps {n : Fin 128} {st t : Store} (h : st.allocateVoice n = some t) : StoreKeeps st t := by
  unfold Store.allocateVoice at h
  split at h
  · exact allocate_keeps h
  · cases h

theorem allocateMany_keeps {n : Fin 128} {k : Nat} {st t : Store} (h : Store.allocateMany n k st = some t) : StoreKeeps st t := by
  induction k generalizing st with
  | zero => cases h; exact .refl _
  | succ k ih =>
    simp only [Store.allocateMany, Option.bind_eq_some_iff] at h
    obtain ⟨u, hu, ht⟩ := h
    exact (allocate_keeps hu).trans (ih ht)

theorem allocateArea_keeps {n : Fin 128} {st t : Store} (h : st.allocateArea n = some t) : StoreKeeps st t := by
  unfold Store.allocateArea at h
  split at h
  · exact allocateMany_keeps h
  · cases h

/-! ## Fields beside the blocks -/

theorem handles_keeps (st : Store) (hs : List Handle) : StoreKeeps st { st with handles := hs } := ⟨rfl, rfl, fun x => x⟩

theorem pages_keeps (st : Store) (ps : Vector PageEntry 256) : StoreKeeps st { st with pages := ps } := ⟨rfl, rfl, fun x => x⟩

theorem seq_keeps (st : Store) (q : BitVec 32) : StoreKeeps st { st with seqCounter := q } := ⟨rfl, rfl, fun x => x⟩

theorem dram_keeps {st : Store} {m : List Host.Cell} (h : Memory.wf st.dram = true → Memory.wf m = true) :
    StoreKeeps st { st with dram := m } :=
  ⟨rfl, rfl, fun x => ⟨x.1, x.2.1, x.2.2.1, x.2.2.2.1, x.2.2.2.2.1, h x.2.2.2.2.2⟩⟩

theorem openHandle_keeps (h : Handle) (st : Store) : StoreKeeps st (st.openHandle h) := handles_keeps st _

theorem updPage_keeps (k : Fin 256) (f : PageEntry → PageEntry) (st : Store) : StoreKeeps st (st.updPage k f) := pages_keeps st _

theorem releasePage_keeps (k : Fin 256) (st : Store) : StoreKeeps st (st.releasePage k) :=
  (updDir_same (n := st.pages[k].owner) (f := fun e => { e with pageList := e.pageList.filter (· != k) }) rfl).trans (pages_keeps _ _)

theorem releasePages_keeps (ks : List (Fin 256)) (st : Store) : StoreKeeps st (Store.releasePages ks st) := by
  induction ks generalizing st with
  | nil => exact .refl st
  | cons k ks ih => exact (releasePage_keeps k st).trans (ih _)

theorem freeEntry_keeps (n : Fin 128) (st : Store) : StoreKeeps st (st.freeEntry n) := by
  unfold Store.freeEntry
  have hp := releasePages_keeps st.dir[n].pageList st
  refine ⟨hp.size, hp.reserve, fun x => ?_⟩
  have hy := hp.ok x
  have hg : StoreKeeps (Store.releasePages st.dir[n].pageList st)
      ((Store.releasePages st.dir[n].pageList st).giveBlocks (st.dir[n].blocks.map (·.num))) := giveBlocks_keeps fun _ b hb => by
    obtain ⟨r, hr, rfl⟩ := List.mem_map.1 hb
    rw [hp.size]
    exact x.2.2.2.2.1 n r hr
  exact (updDir_ok (n := n) (f := fun _ => .free) fun _ _ hb => absurd hb List.not_mem_nil).ok (hg.ok hy)

theorem retire_keeps (n : Fin 128) (st : Store) : StoreKeeps st (st.retire n) := by
  unfold Store.retire
  exact .ite (fun _ => freeEntry_keeps n st) (fun _ => updDir_same rfl)

theorem retireWrite_keeps (n : Fin 128) (st : Store) : StoreKeeps st (st.retireWrite n) := by
  unfold Store.retireWrite
  exact StoreKeeps.trans (.ite (fun _ => releasePages_keeps _ st) (fun _ => .refl st)) (retire_keeps n _)

theorem closeHandle_keeps (h : Holder) (st : Store) : StoreKeeps st (st.closeHandle h) := by
  unfold Store.closeHandle
  split
  · exact .refl st
  · exact (handles_keeps st _).trans (.ite (fun _ => freeEntry_keeps _ _) (fun _ => .refl _))

theorem closeHandles_keeps (hs : List Holder) (st : Store) : StoreKeeps st (Store.closeHandles hs st) := by
  induction hs generalizing st with
  | nil => exact .refl st
  | cons h hs ih => exact (closeHandle_keeps h st).trans (ih _)

theorem markReached_keeps (n : Fin 128) (pos : Nat) (st : Store) : StoreKeeps st (st.markReached n pos) := by
  unfold Store.markReached
  exact .ite (fun _ => updDir_same rfl) (fun _ => .refl _)

theorem moveHandle_keeps (h : Holder) (pos : Nat) (st : Store) : StoreKeeps st (st.moveHandle h pos) := by
  unfold Store.moveHandle
  split
  · exact .refl st
  · exact (handles_keeps st _).trans (markReached_keeps _ _ _)

theorem seek_keeps (h : Holder) (t : Nat) (st : Store) : StoreKeeps st (st.seek h t) := by
  unfold Store.seek
  split
  · exact .refl st
  · exact moveHandle_keeps _ _ _

/-! ## Entries and pages -/

theorem newEntry_keeps {tod : Tod} {r : NewEntry} {st : Store} {x : Fin 128 × Store} (h : st.newEntry tod r = some x) :
    StoreKeeps st x.2 := by
  unfold Store.newEntry at h
  cases hf : st.freeEntry? with
  | none => rw [hf] at h; cases h
  | some n =>
    rw [hf] at h
    cases h
    exact ((seq_keeps st (st.seqCounter + 1)).trans (updDir_ok fun _ _ hb => absurd hb List.not_mem_nil)).trans (openHandle_keeps _ _)

theorem putNote_keeps (tod : Tod) (l : LineId) (c : Option CallerRecord) (n : Fin 128) (st : Store) :
    StoreKeeps st (st.putNote tod l c n) := by
  unfold Store.putNote
  exact (seq_keeps st (st.seqCounter + 1)).trans (updDir_ok fun _ _ hb => absurd hb List.not_mem_nil)

theorem callNote_keeps (tod : Tod) (l : LineId) (c : Option CallerRecord) (st : Store) : StoreKeeps st (st.callNote tod l c) := by
  unfold Store.callNote
  split
  · exact putNote_keeps ..
  · split
    · exact .refl st
    · exact (freeEntry_keeps _ st).trans (putNote_keeps ..)

theorem closeWrite_keeps (n : Fin 128) (st : Store) : StoreKeeps st (st.closeWrite n) := handles_keeps st _

theorem complete_keeps (n : Fin 128) (stop : Option StopReason) (st : Store) : StoreKeeps st (st.complete n stop) := by
  exact (updDir_same rfl).trans (closeWrite_keeps n _)

theorem reachedAtEnd_keeps (n : Fin 128) (st : Store) : StoreKeeps st (st.reachedAtEnd n) :=
  .ite (fun _ => markReached_keeps ..) (fun _ => .refl st)

theorem setLength_keeps (n : Fin 128) (a b : Nat) (st : Store) : StoreKeeps st (st.setLength n a b) := updDir_same rfl

theorem newPage_keeps {n : Fin 128} {res : Resolution} {start : Nat} {st : Store} {x : Fin 256 × Store}
    (h : st.newPage n res start = some x) : StoreKeeps st x.2 := by
  unfold Store.newPage at h
  split at h
  · cases h
  · cases hf : st.freePage? with
    | none => rw [hf] at h; cases h
    | some k =>
      rw [hf] at h
      cases h
      exact (updDir_same (n := n) (f := fun e => { e with pageList := e.pageList ++ [k] }) rfl).trans (pages_keeps _ _)

/-! ## Cut-back -/

theorem cutVoice_nums {P : Nat → Prop} (n : Nat) (bs : List BlockRef) (h : ∀ b ∈ bs, P b.num) :
    (∀ b ∈ (cutVoice n bs).1, P b.num) ∧ ∀ k ∈ (cutVoice n bs).2, P k := by
  induction bs generalizing n with
  | nil => exact ⟨fun _ hb => absurd hb List.not_mem_nil, fun _ hk => absurd hk List.not_mem_nil⟩
  | cons b bs ih =>
    unfold cutVoice
    have hb := h b (by simp)
    have ht : ∀ c ∈ bs, P c.num := fun c hc => h c (by simp [hc])
    split
    · refine ⟨fun _ hc => absurd hc List.not_mem_nil, fun k hk => ?_⟩
      obtain ⟨c, hc, rfl⟩ := List.mem_map.1 hk
      exact h c hc
    · split
      · refine ⟨fun c hc => ?_, (ih _ ht).2⟩
        rcases List.mem_cons.1 hc with rfl | hc
        · exact hb
        · exact (ih _ ht).1 c hc
      · refine ⟨fun c hc => ?_, fun k hk => ?_⟩
        · simp only [List.mem_singleton] at hc
          subst hc
          exact hb
        · obtain ⟨c, hc, rfl⟩ := List.mem_map.1 hk
          exact ht c hc

theorem cutBack_keeps (n : Fin 128) (len : Nat) (st : Store) : StoreKeeps st (st.cutBack n len) := by
  refine ⟨rfl, rfl, fun x => ?_⟩
  have hb := x.2.2.2.2.1 n
  have hr : (∀ b ∈ (if st.dir[n].kind.isVoice then cutVoice len st.dir[n].blocks
      else (st.dir[n].blocks.take (ceilDiv len Config.blockBytes),
        (st.dir[n].blocks.drop (ceilDiv len Config.blockBytes)).map (·.num))).1, b.num < st.nBlocks) ∧
      ∀ k ∈ (if st.dir[n].kind.isVoice then cutVoice len st.dir[n].blocks
      else (st.dir[n].blocks.take (ceilDiv len Config.blockBytes),
        (st.dir[n].blocks.drop (ceilDiv len Config.blockBytes)).map (·.num))).2, k < st.nBlocks := by
    split
    · exact cutVoice_nums (P := (· < st.nBlocks)) len _ hb
    · refine ⟨fun b h => hb b (List.mem_of_mem_take h), fun k hk => ?_⟩
      obtain ⟨c, hc, rfl⟩ := List.mem_map.1 hk
      exact hb c (List.mem_of_mem_drop hc)
  unfold Store.cutBack
  refine StoreKeeps.ok (giveBlocks_keeps fun _ b h => hr.2 b h) (StoreKeeps.ok (updDir_ok fun _ b h => hr.1 b h) ?_)
  refine ⟨x.1, x.2.1, x.2.2.1, x.2.2.2.1, x.2.2.2.2.1, ?_⟩
  dsimp only
  split
  · split
    · exact x.2.2.2.2.2
    · exact putCount_wf x.2.2.2.2.2 _
  · exact x.2.2.2.2.2

/-! ## A block's sample count -/

theorem dropLast_nums {bs : List BlockRef} {n k : Nat} (h : ∀ b ∈ bs, b.num < n) :
    ∀ b ∈ bs.dropLast ++ ((bs.getLast?.map (·.num)).toList.map fun x => (⟨x, k⟩ : BlockRef)), b.num < n := by
  intro b hb
  rcases List.mem_append.1 hb with hb | hb
  · exact h b (List.dropLast_subset _ hb)
  · cases hl : bs.getLast? with
    | none => rw [hl] at hb; simp at hb
    | some c =>
      rw [hl] at hb
      simp only [Option.map_some, Option.toList_some, List.map_cons, List.map_nil, List.mem_singleton] at hb
      subst hb
      exact h c (List.mem_of_getLast? hl)

theorem setLastCount_nums {bs : List BlockRef} {n k : Nat} (h : ∀ b ∈ bs, b.num < n) : ∀ b ∈ setLastCount k bs, b.num < n := by
  intro b hb
  unfold setLastCount at hb
  rcases List.mem_append.1 hb with hb | hb
  · exact h b (List.dropLast_subset _ hb)
  · cases hl : bs.getLast? with
    | none => rw [hl] at hb; simp at hb
    | some c =>
      rw [hl] at hb
      simp only [Option.toList_some, List.map_cons, List.map_nil, List.mem_singleton] at hb
      subst hb
      exact h c (List.mem_of_getLast? hl)

theorem growFax_keeps {n : Fin 128} {len k : Nat} {st t : Store} (h : growFax n len k st = some t) : StoreKeeps st t := by
  induction k generalizing st with
  | zero => cases h; exact .refl _
  | succ k ih =>
    unfold growFax at h
    split at h
    · simp only [Option.bind_eq_some_iff] at h
      obtain ⟨u, hu, ht⟩ := h
      exact (allocateUnbound_keeps hu).trans (ih ht)
    · cases h; exact .refl _

theorem parseOctet_keeps {n : Fin 128} {pos : Nat} {b : Byte} {q : FaxParser} {st : Store} {r : FaxParser × Store}
    (h : parseOctet n pos b q st = some r) : StoreKeeps st r.2 := by
  unfold parseOctet at h
  split at h
  · split at h
    · cases h; exact .refl _
    · unfold openSection at h
      dsimp only at h
      split at h
      · cases h
      · split at h
        · cases h
        · cases hp : st.newPage n _ (pos + 1) with
          | none => rw [hp] at h; cases h
          | some x => rw [hp] at h; cases h; exact newPage_keeps hp
  · unfold sectionOctet at h
    dsimp only at h
    split at h
    · cases h
    · split at h
      · cases h; exact .refl _
      · simp only [Option.ite_none_right_eq_some, Option.some.injEq] at h
        obtain ⟨_, rfl⟩ := h
        exact pages_keeps st _

theorem parseOctets_keeps {n : Fin 128} {pos : Nat} {bs : List Byte} {q : FaxParser} {st : Store} {r : FaxParser × Store}
    (h : parseOctets n pos bs q st = some r) : StoreKeeps st r.2 := by
  induction bs generalizing pos q st with
  | nil => cases h; exact .refl _
  | cons b bs ih =>
    unfold parseOctets at h
    split at h
    · cases h
    · next x hx => exact (parseOctet_keeps hx).trans (ih h)

/-! ## Formatting and freeing -/

theorem freeAll_keeps (ns : List (Fin 128)) (st : Store) : StoreKeeps st (Store.freeAll ns st) := by
  induction ns generalizing st with
  | nil => exact .refl st
  | cons n ns ih => exact (freeEntry_keeps n st).trans (ih _)

theorem formatted_keeps (st : Store) : StoreKeeps st (.formatted st.nBlocks st.reserve st.dram) :=
  ⟨rfl, rfl, fun x => ⟨x.1, x.2.1, Nat.zero_le _, fun b hb => (by cases hb), fun n b hb => (by
    simp only [Store.formatted, Fin.getElem_fin, Vector.getElem_replicate] at hb
    cases hb), x.2.2.2.2.2⟩⟩

end Sys2Proof.Machine
end

