-- ==== Sys2Proof/Laws/Media.lean ====
section
/-! SUPPORT. What a turn of a staging buffer does in each activity, and which frames a later round sends. -/

namespace Sys2Proof.Machine

/-- A playback that waits takes no turn: it turns when it goes on (R106). -/
theorem voiceTurn_of_waiting {c : CtxId} {s : State} (h : (s.vp.get c).activity = .playing) (hw : (s.vp.get c).waiting = true) :
    voiceTurn c s = s := by
  simp [voiceTurn, h, hw]

/-- A playback that has used up its buffer and does not wait turns (R88, R106). -/
theorem voiceTurn_of_playing {c : CtxId} {s : State} (h : (s.vp.get c).activity = .playing) (hu : (s.vp.get c).usedUp = true)
    (hw : (s.vp.get c).waiting = false) : voiceTurn c s = playTurn c s := by
  simp [voiceTurn, h, hu, hw]

/-- A recording turns once its block is full and its turn is due (R88, R103). -/
theorem voiceTurn_of_recording {c : CtxId} {s : State} (h : (s.vp.get c).activity = .recording) (hd : (s.vp.get c).turnDue = true) :
    voiceTurn c s = recordTurn c s := by
  simp [voiceTurn, h, hd]

/-- A later round sends the frames of the block that the missing list names (R162). -/
theorem mem_framesAgain {missing : List Nat} {count k : Nat} : k ∈ framesAgain missing count ↔ k < count ∧ k ∈ missing := by
  simp [framesAgain]

end Sys2Proof.Machine
end

