-- ==== Sys2Proof/Tests/Slice0.lean ====
section
/-! SUPPORT. Tests of the model: an ill-formed term for each check of WellFormed, worked examples of the spec, and for each obligation
with hypotheses a concrete state and operands that meet them, clause by clause. Expected values come from the rules cited. -/

namespace Sys2Proof.Tests

open Sys2Proof.Machine Sys2Proof.Claims

/-! ## Small states -/

/-- A command from the CP, and one from the PP. -/
def hd : CmdHead := ⟨.cp, 1, true⟩
def hdp : CmdHead := ⟨.pp, 1, true⟩

/-- Reset, with both ports READY. -/
def ready : State :=
  { State.reset with pc := ⟨{ PortCtl.fresh true with state := .ready }, { PortCtl.fresh true with state := .ready }⟩ }

/-- `ready` with line 0's record, Signal Unit or voice context changed. -/
def withLine (f : LineRec → LineRec) : State := { ready with lc := ⟨f ready.lc.line0, ready.lc.line1⟩ }
def withSu (f : SignalUnit → SignalUnit) : State := { ready with su := ⟨f ready.su.line0, ready.su.line1⟩ }

/-- Line 0 in a state under a controller. -/
def lineAt (st : LineState) (c : Controller) : State := withLine fun r => { r with state := st, controller := c }

/-- A state whose ports are those of `ready` takes any command of the CP, and any of the PP. -/
theorem takes {s : State} (c : Command) (h1 : s.standby = false) (h2 : s.pc = ready.pc) : Takes hd c s :=
  ⟨h1, by rw [h2]; rfl, rfl, by rw [h2]; decide, .inl (by rw [h2]; rfl)⟩

theorem takes_pp {s : State} (c : Command) (h1 : s.standby = false) (h2 : s.pc = ready.pc) : Takes hdp c s :=
  ⟨h1, by rw [h2]; rfl, rfl, by rw [h2]; decide, .inl (by rw [h2]; rfl)⟩

/-! ## What is not well formed -/

theorem test_wf_number : (Instr.lineStatus hd 4294967295).wf = true ∧ (Instr.lineStatus hd 4294967296).wf = false := by decide

theorem test_wf_optNumber :
    (Instr.record hd ⟨some .loc, .absent, some 4294967295, false⟩).wf = true ∧
    (Instr.record hd ⟨some .loc, .absent, some 4294967296, false⟩).wf = false := by decide

theorem test_wf_string : (Instr.dial hd 0 ⟨List.replicate 255 (some .comma), .absent, false, none⟩).wf = true ∧
    (Instr.dial hd 0 ⟨List.replicate 256 (some .comma), .absent, false, none⟩).wf = false := by simp [-List.reduceReplicate, Instr.wf, Command.wf, DialArgs.wf, fitsValue, num, optNum]

theorem test_wf_flags : (Instr.ackChanges hd 0 (List.replicate 255 .ring)).wf = true ∧
    (Instr.ackChanges hd 0 (List.replicate 256 .ring)).wf = false := by simp [-List.reduceReplicate, Instr.wf, Command.wf, num]

theorem test_wf_classes : (Instr.setNotices hd (List.replicate 255 (some .line))).wf = true ∧
    (Instr.setNotices hd (List.replicate 256 none)).wf = false := by simp [-List.reduceReplicate, Instr.wf, Command.wf]

theorem test_wf_policy : (Instr.setLinePolicy hd 0 ⟨.absent, none, .absent, .absent, .absent, some 4294967296, none, .absent, .absent,
    .absent⟩).wf = false := by decide

theorem test_wf_cadence : (Instr.setCadence hd 0 ⟨[⟨0, some .busy, 20, 20, 0, 0, 1⟩], none, none⟩).wf = true ∧
    (Instr.setCadence hd 0 ⟨[⟨0, some .busy, 20, 4294967296, 0, 0, 1⟩], none, none⟩).wf = false := by decide

theorem test_wf_queueCall : (Instr.queueCall hd ⟨[some .comma], false, some .ringOnly, none, .absent, some 4294967296, none, none,
    none⟩).wf = false := by decide

theorem test_wf_clock : (Instr.setClock hd ⟨12, 31, 23, 59, 4294967296⟩).wf = false := by decide

theorem test_wf_voice : (Instr.setVoice hd (some .loc) ⟨none, none, .absent, .absent, .absent, some 4294967296, .absent, none, none,
    .absent⟩).wf = false := by decide

theorem test_wf_fax : (Instr.setFax hd 0 ⟨none, .absent, .absent, none, none, none, none, .val (some (List.replicate 256 0)),
    none⟩).wf = false ∧
    (Instr.setFax hd 0 ⟨none, .absent, .absent, none, none, none, none, .val (some (List.replicate 255 0)), none⟩).wf = true := by simp [-List.reduceReplicate, Instr.wf, Command.wf, FaxArgs.wf, stationArgWf, optFits, fitsValue, num, optNum]

theorem test_wf_link : (Instr.setLink hd ⟨some 4294967296, none, none, .absent, none, none, none, none⟩).wf = false := by decide

theorem test_wf_streams : (Instr.write hd ⟨some .voice, some 4294967296, none, none, none, none⟩).wf = false ∧
    (Instr.read hd ⟨4294967296, none, none⟩).wf = false := by decide

/-- A name of Table 11-3 is not an unknown one, and a name field has 1 to 24 octets. -/
theorem test_wf_unknown : (Instr.unknownCommand hd (nameOctets "DIAL")).wf = false ∧ (Instr.unknownCommand hd []).wf = false ∧
    (Instr.unknownCommand hd (List.replicate 24 0x41)).wf = true ∧
    (Instr.unknownCommand hd (List.replicate 25 0x41)).wf = false := by decide

theorem test_wf_streamData : (Instr.streamDataIn .cp (List.replicate 64 0) false).wf = true ∧
    (Instr.streamDataIn .cp (List.replicate 4097 0) false).wf = false := by simp [-List.reduceReplicate, Instr.wf]

/-- A packet of a kind in the list and of a length within 4096 has no bad header (R201). -/
theorem test_wf_badHeader : (Instr.badPacketHeader .cp 1 4096).wf = false ∧ (Instr.badPacketHeader .cp 1 4097).wf = true ∧
    (Instr.badPacketHeader .cp 0 0).wf = true := by decide

/-- Six ones in a row are no frame's bits (R134). -/
theorem test_wf_frameBits : (Instr.frameReceived .line0 (.bits (List.replicate 5 true))).wf = true ∧
    (Instr.frameReceived .line0 (.bits (List.replicate 6 true))).wf = false := by decide

theorem test_wf_offer :
    (ControlFrame.offer ⟨5, true, true, 7, true, none⟩).wf = false ∧
    (ControlFrame.offer ⟨5, true, true, 40, true, some []⟩).wf = false ∧
    (ControlFrame.offer ⟨5, true, true, 40, true, some (List.replicate 20 0x31)⟩).wf = true ∧
    (ControlFrame.offer ⟨5, true, true, 40, true, some (List.replicate 21 0x31)⟩).wf = false := by decide

theorem test_wf_choose : (ControlFrame.choose ⟨5, .fine, true, 3⟩ none).wf = false ∧
    (ControlFrame.choose ⟨5, .fine, true, 0⟩ (some [])).wf = false := by decide

theorem test_wf_blockFrames :
    (ControlFrame.blockEnd 256 1).wf = false ∧ (ControlFrame.blockEnd 0 0).wf = false ∧ (ControlFrame.blockEnd 0 65).wf = false ∧
    (ControlFrame.blockEnd 255 64).wf = true ∧ (ControlFrame.blockStatus 0 [64]).wf = false ∧
    (ControlFrame.blockStatus 0 [63]).wf = true := by decide

/-- The table gives no bits: no word spells a command, and `withFetchWord` changes nothing. -/
theorem test_table_word (n w : Nat) (s : State) : decodeTableWord n w = none ∧ s.withFetchWord n w = s := ⟨rfl, rfl⟩

/-! ## Witnesses: the machine as a whole -/

theorem test_witness_StepTakesTheFrontCommand : State.reset.pending = [] := rfl

theorem test_witness_StepConsumesOneCommand :
    ({ ready with pending := [.clockTick] } : State).pending = [.clockTick] ∧
    ∃ t, step { ready with pending := [.clockTick] } = .next t := ⟨rfl, _, rfl⟩

theorem test_free_dir : ∀ n : Fin 128, ready.store.dir[n] = DirEntry.free := by
  intro n; simp [ready, State.reset, State.afterResetn, Store.formatted]

/-- `ready` is legal. -/
theorem test_ready_legal : Legal ready where
  line := by intro l; cases l <;> unfold LineOk PolicyOk <;> decide
  unit := by intro l; cases l <;> unfold UnitOk CadenceOk <;> decide
  store := by
    refine ⟨by decide, by decide, by decide, by decide, ?_, by decide⟩
    intro n b hb
    rw [test_free_dir n] at hb
    cases hb
  ctx := by intro c; cases c <;> unfold CtxOk VoiceOk <;> decide
  clock := by unfold ClockOk; decide
  access := by unfold CodeOk; decide
  session := by intro l; cases l <;> unfold SessionOk <;> decide
  chan := by intro l; cases l <;> unfold ChanOk CountsOk <;> decide
  faxSet := by intro l; cases l <;> unfold FaxOk <;> decide
  linkSet := by unfold LinkSetOk; decide
  link := by unfold LinkOk; decide
  inb := by intro p; cases p <;> unfold InOk <;> decide
  outb := by intro p; cases p <;> unfold OutOk <;> decide
  port := by intro p; cases p <;> unfold PortOk <;> decide
  dial := by intro l; cases l <;> decide
  call := by decide

theorem test_witness_StepKeepsLegal : Legal ready ∧ ∃ t, step ready = .next t := ⟨test_ready_legal, _, rfl⟩

theorem test_witness_NoRunFromResetStops : Legal ready := test_ready_legal

/-- A detached port, a standing one, a full reply queue, a command behind another, an attached port, and bad arguments. -/
def port0 (f : PortCtl → PortCtl) : State := { ready with pc := ⟨f ready.pc.cp, ready.pc.pp⟩ }
def waitingEntry : ReplyEntry := ⟨some ⟨0, .ok, .none⟩, none⟩

theorem test_witness_CommandsWaitOrAreTurnedAway :
    (Instr.hangUp hd 0).command? = some (hd, .hangUp 0) ∧
    ({ ready with standby := true } : State).standby = true ∧
    ((port0 fun c => { c with state := .detached }).pc.get hd.port).state = .detached ∧
    (let k := (port0 fun c => { c with cmdQueue := [⟨1, true, .hangUp 0⟩],
                                       replyQueue := List.replicate 4 waitingEntry }).pc.get hd.port
     k.state ≠ .detached ∧ k.cmdQueue.head? = some ⟨hd.tag, hd.argsOk, .hangUp 0⟩ ∧ 4 ≤ k.replyQueue.length) ∧
    (let k := (port0 fun c => { c with replyQueue := List.replicate 4 waitingEntry }).pc.get hd.port
     k.state ≠ .detached ∧ k.cmdQueue.head? ≠ some ⟨hd.tag, hd.argsOk, .hangUp 0⟩ ∧ 4 ≤ k.replyQueue.length) ∧
    (let k := (port0 fun c => { c with cmdQueue := [⟨2, true, .hello⟩] }).pc.get hd.port
     k.state ≠ .detached ∧ k.cmdQueue.head? ≠ some ⟨hd.tag, hd.argsOk, .hangUp 0⟩ ∧ k.cmdQueue ≠ []) ∧
    (let k := (port0 fun c => { c with state := .attached }).pc.get hd.port
     k.replyQueue.length < 4 ∧ k.cmdQueue = [] ∧ k.state = .attached ∧ takenAttached (.hangUp 0) = false) ∧
    (let h : CmdHead := ⟨.cp, 1, false⟩
     (Instr.hello h).command? = some (h, .hello) ∧ (ready.pc.get h.port).replyQueue.length < 4 ∧
     (ready.pc.get h.port).cmdQueue = [] ∧ (ready.pc.get h.port).state = .ready ∧ h.argsOk = false ∧
     knownName .hello = true) := by decide

theorem test_ready_calm : Calm ready where
  channels := by intro l; cases l <;> rfl
  streams := by intro p; cases p <;> decide
  queue := by decide
  screen := by intro l; cases l <;> rfl
  speaker := by intro l; cases l <;> decide
  refresh := rfl
  plays := by intro c; cases c <;> decide
  voice := by intro c; cases c <;> rfl
  fax := by intro l; cases l <;> rfl

theorem test_witness_SettleLeavesCalmStates : Calm ready := test_ready_calm

/-- A CLOCK_TICK is none of the commands that set something, nor a release of RESETN. -/
theorem test_witness_SettingsChangeOnlyByTheirCommand : (∃ t, exec .clockTick ready = .next t) ∧
    (∀ v, Instr.clockTick ≠ .resetnRelease v) ∧ (∀ h n a, Instr.clockTick ≠ .setLinePolicy h n a) ∧
    (∀ h n a, Instr.clockTick ≠ .setCadence h n a) ∧ (∀ h n a, Instr.clockTick ≠ .setVoice h n a) ∧
    (∀ h a, Instr.clockTick ≠ .setAccessCode h a) ∧ (∀ h n a, Instr.clockTick ≠ .setFax h n a) ∧
    (∀ h a, Instr.clockTick ≠ .setLink h a) ∧ (∀ h b, Instr.clockTick ≠ .setReserve h b) :=
  ⟨⟨_, rfl⟩, by refine ⟨?_, ?_, ?_, ?_, ?_, ?_, ?_, ?_⟩ <;> intros <;> exact Instr.noConfusion⟩

theorem test_witness_SettingsAtResetn (v : PinLevels) : ∃ t, exec (.resetnRelease v) ready = .next t := ⟨_, rfl⟩

/-! ## Witnesses and worked examples: arithmetic and encodings -/

theorem test_witness_FramesHoldNoFlagAndShowOneBadBit : 0 < 8 * (([] : List Byte).length + 3) ∧
    23 < 8 * (([] : List Byte).length + 3) := by decide

theorem test_witness_LinkFramesReadBack :
    (1 ≤ 15 ∧ 15 ≤ 15 ∧ 16 ≤ 256 ∧ 256 ≤ 256) ∧ (1 ≤ 1 ∧ 1 ≤ 15 ∧ 16 ≤ 16 ∧ 16 ≤ 256) ∧
    (31 < 32 ∧ [(0 : Byte)] ≠ [] ∧ [(0 : Byte)].length ≤ 16) ∧
    ([31, 0, 1, 2] ≠ [] ∧ [31, 0, 1, 2].length ≤ 4 ∧ ∀ n ∈ [31, 0, 1, 2], n < 32) := by decide

/-- R98: the prefilter's outputs, and one sample alone. -/
theorem test_prefilter : prefiltered .r8000 [-3, -2, -2] = [-2, -2, -2] ∧ prefiltered .r7200 [17] = [17] := by decide

theorem test_witness_PrefilterAndResamplerFollowTheirRules :
    (Rate.r8000 ≠ .r9600 ∧ [(7 : Int)].length = 1 ∧ 2 ≤ [(-32768 : Int), 32767].length ∧ 1 < [(-32768 : Int), 32767].length ∧
      ∀ y ∈ [(-32768 : Int), 32767], -32768 ≤ y ∧ y ≤ 32767) ∧
    ([1, 2] : List Int).length < 3 ∧ 0 < 50 ∧ 60 * ([1, 2] : List Int).length ≤ 50 * 3 ∧
    (resampleEnd 3 50 [1, 2] 0)[2]? = some 1 ∧ 60 * ([1, 2] : List Int).length ≤ recordStep .r8000 * 2 := by decide

theorem test_witness_CodersFollowTheirTables :
    (47 ≤ 47 ∧ (-32768 : Int) ≤ 0 ∧ (0 : Int) ≤ 32767 ∧ ((100 : Int) - 0).natAbs * 4 < 8 * q4Step 47) ∧
    (-32768 ≤ (0 : Int) + 128 ∧ (0 : Int) + 128 ≤ 32767) ∧ 32767 < (32767 : Int) + ditherOf .alt 0 0 ∧
    (-32770 : Int) + ditherOf .none 0 0 < 32767 ∧ (-32897 : Int) + ditherOf .none 0 0 < -32768 := by decide

/-- R96's worked values. -/
theorem test_gain : gain 20 30000 = 32767 ∧ gain 20 (-30001) = -32768 ∧ gain 17 (-1) = -2 ∧ gain 31 0 = 0 := by decide

theorem test_witness_GainScalesAndClamps :
    let s := { ready with vp := ⟨{ ready.vp.l0 with activity := .recording }, ready.vp.l1,
      { ready.vp.loc with activity := .recording }⟩ }
    let p := { ready with vp := ⟨{ ready.vp.l0 with activity := .playing, held := [3, 5], pos := 0 }, ready.vp.l1, ready.vp.loc⟩ }
    (s.vp.get (ctxOf .line0)).activity = .recording ∧ s.vp.loc.activity = .recording ∧
    (let v := (fillInputs .l0 8 p).vp.get .l0
     v.held[v.pos / 60]? = some 3 ∧ v.held[v.pos / 60 + 1]? = some 5) := by decide

theorem test_witness_VoiceBlocksReadBack :
    (-32768 ≤ (-32768 : Int) ∧ (32767 : Int) ≤ 32767 ∧ 1008 ≤ blockSamples .q4 ∧ 504 ≤ blockSamples .q8 ∧ 47 ≤ 47) ∧
    (List.replicate 8 (0 : Byte)).length = 8 ∧ (∀ v ∈ [15, 0, 7], v < 16) ∧ (∀ v ∈ [255, 0], v < 256) ∧
    [15, 0, 7].length % 2 = 1 := by decide

/-- R158's worked page: 1100 lines, tolerance 5, run limit 8. -/
theorem test_verdict : judgePage 1100 40 3 5 8 = .good ∧ judgePage 1100 70 3 5 8 = .poor ∧ judgePage 1100 55 8 5 8 = .good ∧
    judgePage 1100 111 3 5 8 = .bad ∧ judgePage 0 0 0 5 8 = .bad := by decide

theorem test_witness_PageVerdictByItsLimits :
    let s := { ready with fw := ⟨{ ready.fw.line0 with trained := true }, ready.fw.line1⟩ }
    (s.fw.get .line0).storeFull = false ∧ (s.fw.get .line0).trained = true ∧ (s.fw.get .line0).pageEntry = none ∧
    (s.fx.get .line0).document = none ∧ (s.fx.get .line0).received = 0 := by decide

theorem test_witness_DramReadsBackWhatWasWritten :
    Memory.wf [] = true ∧ (0 < 1 ∨ 1 + [(5 : Byte)].length ≤ 0) ∧ (1 < 1 ∨ 1 + [(5 : Byte)].length ≤ 2) ∧
    ∀ x, memRead x [] = memRead x [] := ⟨by decide, by decide, by decide, fun _ => rfl⟩

/-! ## Witnesses: reset, standby and the ports -/

/-- Standby, a running block, a command that does not act in standby, and RESET of each port. -/
theorem test_witness_StandbyAndResetEndEverything :
    ({ ready with standby := true } : State).standby = true ∧ Runs ready ∧ ¬ ActsInStandby (.ringGone .line0) ∧
    ready.arb.refresh = false ∧ Takes hd .reset ready ∧ Takes hdp .reset ready :=
  ⟨rfl, rfl, fun h => h, rfl, takes _ rfl rfl, takes_pp _ rfl rfl⟩

/-- The store of `ready` with entry 0 in a state, of a kind, `n` samples committed at 8000. -/
def storeWith (st : EntryState) (k : Kind) (n : Nat) : Store :=
  { ready.store with dir := ready.store.dir.set 0 { DirEntry.free with
      state := st, kind := k, length := n, committed := n, format := some ⟨.q4, .r8000, some .alt⟩ } }

/-- What RESET makes of an entry (R91): by its state, and of a VOICE entry in WRITING by its committed length. -/
theorem test_witness_StoreAfterReset :
    (∀ n : Fin 128, ready.store.dir[n].state = .free ∨ ready.store.dir[n].state = .complete) ∧
    (storeWith .deletePending .voice 0).dir[(0 : Fin 128)].state = .deletePending ∧
    (let e := (storeWith .complete .faxIn 0).dir[(0 : Fin 128)]
     e.state = .complete ∧ e.kind ≠ .greeting ∧ e.kind ≠ .announce ∧ e.pageList = []) ∧
    (∀ n ∈ [7999, 8000], let e := (storeWith .writing .voice n).dir[(0 : Fin 128)]
     e.state = .writing ∧ e.kind = .voice ∧ e.format = some ⟨.q4, .r8000, some .alt⟩ ∧ e.committed = n) :=
  ⟨fun n => .inl (by simp [ready, State.reset, State.afterResetn, Store.formatted]; rfl), by decide, by decide, by decide⟩

theorem test_witness_PortsFollowTheirMasters :
    Runs ready ∧ (port0 fun c => { c with state := .attached }).pc.cp.state ≠ .ready ∧
    ({ ready with pc := ⟨ready.pc.cp, .fresh false⟩ } : State).pc.pp.state ≠ .ready ∧
    ready.pc.cp.state = .ready ∧ ready.pc.pp.state = .ready ∧ Takes hd .resetPort ready ∧
    ((0 : Byte).toNat = 0 ∨ 5 < (0 : Byte).toNat ∨ 4096 < 0) ∧ ((1 : Byte).toNat = 0 ∨ 5 < (1 : Byte).toNat ∨ 4096 < 4097) ∧
    ((6 : Byte).toNat = 0 ∨ 5 < (6 : Byte).toNat ∨ 4096 < 0) ∧ (ready.pc.get .cp).cmdQueue.length < 4 ∧
    ((port0 fun c => { c with state := .attached }).pc.get .cp).state = .attached ∧
    ((port0 fun c => { c with state := .detached }).pc.get .cp).state = .detached :=
  ⟨rfl, by decide, by decide, rfl, rfl, takes _ rfl rfl, by decide, by decide, by decide, by decide, rfl, rfl⟩

theorem test_witness_HelloIdentifyAndSetNotices :
    Takes hd .identify ready ∧ Takes hd .hello ready ∧
    (let s := port0 fun c => { c with state := .attached }
     Runs s ∧ hd.argsOk = true ∧ (s.pc.get hd.port).state = .attached ∧ (s.pc.get hd.port).cmdQueue = [] ∧
       (s.pc.get hd.port).replyQueue.length < 4) ∧
    Takes hd (.setNotices ([.line, .store].map some)) ready ∧ none ∈ [some NoticeClass.line, none] ∧
    Takes hd (.setNotices [some .line, none]) ready :=
  ⟨takes _ rfl rfl, takes _ rfl rfl, by decide, takes _ rfl rfl, by decide, takes _ rfl rfl⟩

theorem test_witness_NoticesJoinTheirPendingEntry :
    let n : Notice := ⟨.line, .line .line0, [.ring]⟩
    ((port0 fun c => { c with state := .attached }).pc.get .cp).state ≠ .ready ∧
    n.cls ∉ ((port0 fun c => { c with mask := [.fax] }).pc.get .cp).mask ∧
    (ready.pc.get .cp).state = .ready ∧ n.cls ∈ (ready.pc.get .cp).mask ∧
    (∀ m ∈ (ready.pc.get .cp).noticeQueue, m.cls ≠ n.cls ∨ m.subject ≠ n.subject) ∧
    (let m : Notice := ⟨.line, .line .line0, [.state]⟩
     let x : Notice := ⟨.line, .line .line1, [.ring]⟩
     ((port0 fun c => { c with noticeQueue := [x, m] }).pc.get .cp).noticeQueue = [x] ++ m :: [] ∧ m.cls = n.cls ∧
       m.subject = n.subject ∧ ∀ y ∈ [x], y.cls ≠ n.cls ∨ y.subject ≠ n.subject) := by decide

theorem test_witness_PacketsCrossThePort :
    Runs ready ∧ (ready.pc.get .cp).state ≠ .detached ∧ Takes hd (.unknown [0x41]) ready ∧ Takes hd .readNotice ready ∧
    (ready.pc.get hd.port).noticeQueue = [] ∧
    (let n : Notice := ⟨.store, .store, [.counts]⟩
     let s := port0 fun c => { c with noticeQueue := [n] }
     Takes hd .readNotice s ∧ (s.pc.get hd.port).noticeQueue = n :: []) ∧
    (let n : NoticePacket := ⟨0, ⟨.store, .store, [.counts]⟩, none⟩
     ((port0 fun c => { c with replyQueue := [⟨some ⟨0, .ok, .none⟩, some n⟩] }).pc.get .cp).replyQueue =
       ⟨some ⟨0, .ok, .none⟩, some n⟩ :: []) ∧
    ((port0 fun c => { c with replyQueue := [waitingEntry] }).pc.get .cp).replyQueue = waitingEntry :: [] ∧
    waitingEntry.notice = none ∧ (ready.pc.get .cp).replyQueue = [] ∧
    ((port0 fun c => { c with creditOut := [8] }).pc.get .cp).creditOut = 8 :: [] ∧
    ((port0 fun c => { c with creditOut := [8] }).pc.get .cp).dataOut = [] ∧
    ((port0 fun c => { c with dataOut := [⟨[], true⟩] }).pc.get .cp).dataOut = ⟨[], true⟩ :: [] ∧
    ((port0 fun c => { c with dataOut := [⟨[], true⟩] }).pc.get .cp).creditOut = [] :=
  ⟨rfl, by decide, takes _ rfl rfl, takes _ rfl rfl, rfl,
    ⟨⟨rfl, rfl, rfl, by decide, .inl rfl⟩, rfl⟩, rfl, rfl, rfl, rfl, rfl, rfl, rfl, rfl⟩

/-- R204: a notice that meets a pending entry of its class and subject joins it. -/
theorem test_notice_joins :
    enqueueNotice ⟨.line, .line .line0, [.ring]⟩ [⟨.line, .line .line0, [.state]⟩, ⟨.store, .store, [.counts]⟩] =
      [⟨.line, .line .line0, [.state, .ring]⟩, ⟨.store, .store, [.counts]⟩] := by decide

/-! ## Witnesses: lines -/

/-- Line 0 RINGING: `c` rings so far, the caller window as given. -/
def ringing (c : Nat) (w : Window) (f : LineRec → LineRec := id) : State :=
  withLine fun r => f { r with state := .ringing, controller := .automatic, ringCount := c, snapshot := 4, window := w }

theorem test_witness_RingBurstStartBeginsOrCounts :
    Runs ready ∧ (ready.lc.get .line0).state = .idle ∧
    (let r := (ringing 255 .closed).lc.get .line0
     r.state = .ringing ∧ r.window = .closed ∧ r.due = false) ∧
    (∀ w ∈ [Window.pending, .opened], let r := (ringing 1 w).lc.get .line0
     r.state = .ringing ∧ r.window ≠ .closed ∧ r.due = false ∧ r.window = w) ∧
    (let r := (lineAt .extension .none).lc.get .line0
     r.state ≠ .idle ∧ r.state ≠ .ringing) := by decide

theorem test_witness_RingingEndsAreFollowed :
    Runs ready ∧ (ready.lc.get .line0).state = .idle ∧ ((lineAt .extension .none).lc.get .line0).state = .extension ∧
    (let r := (ringing 3 .pending).lc.get .line0
     r.state = .ringing ∧ r.ringCount < r.snapshot ∧ r.due = false ∧ r.window = .pending) ∧
    (let r := (ringing 3 .closed).lc.get .line0
     r.state = .ringing ∧ r.ringCount < r.snapshot ∧ r.due = false ∧ r.window ≠ .pending) ∧
    (let r := (ringing 4 .closed fun r => { r with controller := .port .pp }).lc.get .line0
     r.state = .ringing ∧ r.controller ≠ .automatic ∧ r.due = false) ∧
    (∀ w ∈ [Window.pending, .opened, .closed], let r := (ringing 4 w).lc.get .line0
     r.state = .ringing ∧ r.controller = .automatic ∧ r.decided = false ∧ r.snapshot ≤ r.ringCount ∧ r.window = w) ∧
    (let r := (lineAt .talk (.port .cp)).lc.get .line0
     r.state ≠ .idle ∧ r.state ≠ .extension ∧ r.state ≠ .ringing) ∧
    (let r := (ringing 2 .closed fun r => { r with ringGone := true }).lc.get .line0
     r.state = .ringing ∧ r.ringGone = true ∧ r.window = .closed) := by decide

/-- The answer decision answers no call with mode OFF, and with mode DATA while the CP is not READY. -/
theorem test_witness_Declines :
    Declines .line0 (ringing 4 .closed fun r => { r with policy := { r.policy with answerMode := .off } }) ∧
    Declines .line0 { ringing 4 .closed (fun r => { r with policy := { r.policy with answerMode := .data } }) with
      pc := State.reset.pc } := by
  refine ⟨trivial, fun h => ?_⟩
  exact absurd h.1 (by decide)

theorem test_witness_VoltageAndExtensionAreFollowed :
    Runs ready ∧
    (let s := withLine fun r => { r with faultTimer := .running }
     (s.lc.get .line0).faultTimer = .running ∧ (s.lc.get .line0).state = .idle) ∧
    (let s := ringing 2 .opened fun r => { r with faultTimer := .running, callerOctets := [0xA0] }
     (s.lc.get .line0).faultTimer = .running ∧ (s.lc.get .line0).state = .ringing) ∧
    (let s := withLine fun r => { r with state := .clearing, faultTimer := .running }
     (s.lc.get .line0).faultTimer = .running ∧ (s.lc.get .line0).state ≠ .idle ∧ (s.lc.get .line0).state ≠ .extension ∧
       (s.lc.get .line0).state ≠ .ringing) ∧ (ready.lc.get .line0).faultTimer ≠ .running ∧
    ((lineAt .fault .none).lc.get .line0).state = .fault ∧ (ready.lc.get .line0).state ≠ .fault ∧
    ready.pins.ext.get .line0 = false ∧ ready.pins.ext.get .line0 ≠ true ∧ (ready.lc.get .line0).state = .idle ∧
    ((ringing 1 .opened).lc.get .line0).state = .ringing ∧ ((lineAt .dialling (.port .cp)).lc.get .line0).state = .dialling ∧
    (let r := (withLine fun r => { r with state := .voice, controller := .automatic, policy := { r.policy with extYield := true } }).lc.get
       .line0
     r.state = .voice ∧ r.controller = .automatic ∧ r.policy.extYield = true) ∧
    (let r := (lineAt .voice (.port .cp)).lc.get .line0
     r.state = .voice ∧ r.controller ≠ .automatic) ∧
    ((lineAt .clearing .none).lc.get .line0).state = .clearing ∧ ((lineAt .data (.port .cp)).lc.get .line0).state = .data := by
  decide

/-- Line 0 off hook in a state under a controller, its loop break timed, with what serves it as given. -/
def served (st : LineState) (c : Controller) (f : State → State := id) : State :=
  f (withLine fun r => { r with state := st, controller := c, hook := true, loopBreak := true })

/-- What a cleared call was: a dial, a session, a fax session, and the link (CallCleared, TAKE LINE). -/
theorem test_witness_CallCleared :
    (∀ st ∈ [LineState.seized, .dialling, .awaiting, .voice, .fax, .data, .talk],
      let r := (served st (.port .cp)).lc.get .line0
      r.state = st ∧ r.state.offHook = true ∧ r.loopBreak = true ∧ r.controller = .port hd.port) ∧
    (let s := served .voice .automatic fun s =>
       { s with vm := { s.vm with session := ⟨{ s.vm.session.line0 with phase := .recording }, s.vm.session.line1⟩ },
                vp := ⟨{ s.vp.l0 with entry := some 0 }, s.vp.l1, s.vp.loc⟩ }
     (s.vm.session.get .line0).phase ≠ .none ∧ (s.vm.session.get .line0).phase = .recording ∧
       (s.vp.get (ctxOf .line0)).entry.isSome = true ∧ (s.lc.get .line0).controller = .automatic ∧ (s.lc.get .line0).state = .voice) ∧
    (let s := served .fax .automatic fun s => { s with fx := ⟨{ s.fx.line0 with role := .sender }, s.fx.line1⟩ }
     (s.lc.get .line0).state = .fax ∧ (s.fx.get .line0).role ≠ .none) ∧
    (let s := served .data (.port .cp) fun s => { s with cl := { s.cl with state := .opened, line := some .line0 } }
     (s.lc.get .line0).state = .data ∧ s.cl.state ≠ .ended ∧ s.cl.line = some .line0) := by decide

theorem test_witness_LoopBreakAndGuardClearTheLine :
    Runs ready ∧ ((lineAt .clearing .automatic).lc.get .line0).state = .clearing ∧ (ready.lc.get .line0).state ≠ .clearing ∧
    (let r := (withLine fun r => { r with state := .talk, controller := .port .cp, hook := true, loopBreak := true }).lc.get .line0
     r.state = .talk ∧ r.loopBreak = true ∧ r.entryRef = none) ∧
    (ready.lc.get .line0).state.offHook = false ∧ ((lineAt .seized (.port .cp)).lc.get .line0).loopBreak = false := by decide

/-- The caller message of type A0 with the number 555. -/
def message555 : List Byte := callerMessage 0xA0 [0x11, 3, 0x35, 0x35, 0x35]

/-- Line 0 with its caller window open, its unit in CALLER-RX and the clock not to be set. -/
def callerLine (octets : List Byte) : State :=
  { ringing 1 .opened (fun r => { r with callerOctets := octets, policy := { r.policy with setClock := .never } }) with
    su := ⟨{ ready.su.line0 with mode := .callerRx }, ready.su.line1⟩ }

/-- Table 1-14: the message is complete at its check octet, and gives the number. -/
theorem test_caller_message : message555 = [0xA0, 5, 0x11, 3, 0x35, 0x35, 0x35, 0xA8] ∧
    judgeMessage .default false message555 = ⟨true, none, some [5, 5, 5], none, none, none⟩ := by decide

theorem test_witness_CallerOctetsMakeAJudgedRecord :
    (let s := callerLine message555.dropLast
     Runs s ∧ (s.lc.get .line0).window = .opened ∧ (s.lc.get .line0).due = false ∧ (s.su.get .line0).mode = .callerRx ∧
       (s.lc.get .line0).policy.setClock = .never ∧ messageComplete ((s.lc.get .line0).callerOctets ++ [0xA8]) = true) ∧
    messageComplete (((callerLine []).lc.get .line0).callerOctets ++ [0xA0]) = false ∧
    (1 ≤ [(5 : Fin 10)].length ∧ [(5 : Fin 10)].length ≤ 20) ∧
    (1 ≤ (List.replicate 20 (9 : Fin 10)).length ∧ (List.replicate 20 (9 : Fin 10)).length ≤ 20) ∧
    ((0xA0 : Byte) &&& LinePolicy.default.typeMask) = (LinePolicy.default.typeValue &&& LinePolicy.default.typeMask) ∧
    ((0x40 : Byte) &&& LinePolicy.default.typeMask) ≠ (LinePolicy.default.typeValue &&& LinePolicy.default.typeMask) ∧
    (0 : Byte) ≠ message555.getLast! := by decide

theorem test_witness_LineStatusAndAckChanges :
    lineOfNat 1 = some .line1 ∧ Takes hd (.lineStatus 1) ready ∧ Takes hd (.ackChanges 1 [.ring]) ready ∧ 2 ≤ 2 ∧
    Takes hd (.lineStatus 2) ready ∧ Takes hd (.ackChanges 2 []) ready ∧
    Takes hd (.setLinePolicy 2 ⟨.absent, none, .absent, .absent, .absent, none, none, .absent, .absent, .absent⟩) ready ∧
    Takes hd (.takeLine 2) ready ∧ Takes hd (.releaseLine 2) ready ∧ Takes hd (.answer 2 none) ready ∧
    Takes hd (.hookOff 2) ready ∧ Takes hd (.hookOn 2) ready ∧ Takes hd (.hangUp 2) ready :=
  ⟨rfl, takes _ rfl rfl, takes _ rfl rfl, by decide, takes _ rfl rfl, takes _ rfl rfl, takes _ rfl rfl, takes _ rfl rfl,
    takes _ rfl rfl, takes _ rfl rfl, takes _ rfl rfl, takes _ rfl rfl, takes _ rfl rfl⟩

theorem test_witness_SetLinePolicyChangesNamedSettings :
    let a : PolicyArgs := ⟨.val .fax, some 10, .absent, .absent, .absent, some 256, some 0, .absent, .absent, .absent⟩
    let b : PolicyArgs := ⟨.bad, none, .absent, .absent, .absent, none, none, .absent, .absent, .absent⟩
    lineOfNat 0 = some .line0 ∧ Takes hd (.setLinePolicy 0 a) ready ∧ Takes hd (.setLinePolicy 0 b) ready ∧
    (ready.lc.get .line0).controller ≠ .port (otherPort hd.port) ∧ policyBad a = false ∧ policyBad b = true ∧
    Takes hd (.setLinePolicy 0 a) (lineAt .idle (.port .pp)) ∧
    ((lineAt .idle (.port .pp)).lc.get .line0).controller = .port (otherPort hd.port) :=
  ⟨rfl, takes _ rfl rfl, takes _ rfl rfl, by decide, by decide, by decide, takes _ rfl rfl, by decide⟩

theorem test_witness_TakeAndReleaseLine :
    lineOfNat 0 = some .line0 ∧ (∀ st c, Takes hd (.takeLine 0) (lineAt st c)) ∧ (∀ st c, Takes hd (.releaseLine 0) (lineAt st c)) ∧
    ((lineAt .idle (.port .pp)).lc.get .line0).controller = .port (otherPort hd.port) ∧
    ((lineAt .idle (.port .cp)).lc.get .line0).controller = .port hd.port ∧
    ((lineAt .ringing .automatic).lc.get .line0).controller = .automatic ∧
    (let s := withLine fun r => { r with state := .seized, controller := .automatic, purpose := .voice }
     Takes hd (.takeLine 0) s ∧ (s.lc.get .line0).state = .seized ∧ (s.lc.get .line0).purpose = .voice ∧
       (s.vm.session.get .line0).phase = .none ∧ (s.lc.get .line0).entryRef = none) ∧
    (let s := lineAt .voice .automatic
     (s.lc.get .line0).state = .voice ∧ (s.vm.session.get .line0).phase = .none ∧ (s.lc.get .line0).entryRef = none) ∧
    ((lineAt .fault .none).lc.get .line0).state = .fault ∧ ((lineAt .clearing .none).lc.get .line0).state = .clearing ∧
    ((lineAt .ringing (.port .cp)).lc.get .line0).state.offHook = false ∧
    ((lineAt .talk (.port .cp)).lc.get .line0).entryRef = none :=
  ⟨rfl, fun _ _ => takes _ rfl rfl, fun _ _ => takes _ rfl rfl, rfl, rfl, rfl, ⟨takes _ rfl rfl, rfl, rfl, rfl, rfl⟩,
    ⟨rfl, rfl, rfl⟩, rfl, rfl, rfl, rfl⟩

theorem test_witness_HookCommandsObeyTheController :
    lineOfNat 0 = some .line0 ∧ (ready.lc.get .line0).controller ≠ .port hd.port ∧
    ((lineAt .idle (.port .pp)).lc.get .line0).controller ≠ .port hd.port ∧
    (∀ c, Takes hd c ready) ∧ (∀ c st k, Takes hd c (lineAt st k)) ∧
    (let r := (lineAt .idle (.port .cp)).lc.get .line0
     r.controller = .port hd.port ∧ r.state = .idle ∧ r.state.offHook = false ∧ r.state ≠ .ringing) ∧
    (let r := (lineAt .seized (.port .cp)).lc.get .line0
     r.controller = .port hd.port ∧ r.state = .seized ∧ r.entryRef = none ∧ r.state ≠ .idle) ∧
    (let r := (lineAt .ringing (.port .cp)).lc.get .line0
     r.controller = .port hd.port ∧ r.state = .ringing ∧ r.window = .closed) :=
  ⟨rfl, by decide, by decide, fun _ => takes _ rfl rfl, fun _ _ _ => takes _ rfl rfl, by decide, by decide, by decide⟩

/-! ## Witnesses: Signal Units -/

/-- Line 0's unit in TONES. -/
def tones (f : SignalUnit → SignalUnit := id) : State := withSu fun u => f { u with mode := .tones }

theorem test_witness_CadencesAreCounted :
    Runs (tones) ∧
    (let s := tones fun u => { u with pairOn := some ⟨0, 0⟩, offAt := some 500 }
     let u := s.su.get .line0
     u.mode = .tones ∧ u.generation = none ∧ u.onAt = none ∧ (s.dq.get .line0).record.phase = .idle ∧
       (s.lc.get .line0).state ≠ .voice ∧ 0 < u.cadence[(1 : Fin 8)].repeatCount ∧ 0 < u.cadence[(1 : Fin 8)].offMax ∧
       u.counters[(1 : Fin 8)].count < u.cadence[(1 : Fin 8)].repeatCount ∧ u.pairOn = some ⟨0, 0⟩ ∧ u.offAt = some 500) ∧
    (tones.su.get .line0).pairOn = none ∧
    (let u := (tones fun u => { u with onAt := some ⟨0, 0⟩ }).su.get .line0
     u.mode = .tones ∧ u.generation = none ∧ u.onAt = some ⟨0, 0⟩ ∧ u.onAt.isSome = true ∧ u.cadence[(0 : Fin 8)].offMax = 0 ∧
       0 < u.cadence[(0 : Fin 8)].repeatCount ∧ u.counters[(0 : Fin 8)].reported = false) ∧
    ¬ ((ready.su.get .line0).mode = .voice ∨ ((ready.su.get .line0).mode = .tones ∧ (ready.su.get .line0).generation = none)) ∧
    (let u := (tones fun u => { u with counters := u.counters.set 0 ⟨0, none, false, true⟩ }).su.get .line0
     u.counters[(0 : Fin 8)].reported = true) ∧
    (ready.su.get .line0).mode ≠ .tones ∧ (ready.su.get .line0).mode ≠ .voice := by decide

/-- R33: a busy pair of 500 ms on and 500 ms off counts 1, and the next raises the class; an off period outside the limits clears. -/
theorem test_cadence_pair :
    countedPair 500 ⟨0, 0⟩ ⟨.busy, 400, 600, 400, 600, 2⟩ ⟨0, none, false, false⟩ = ⟨1, some ⟨0, 0⟩, false, false⟩ ∧
    countedPair 500 ⟨1000, 0⟩ ⟨.busy, 400, 600, 400, 600, 2⟩ ⟨1, some ⟨0, 0⟩, false, false⟩ = ⟨0, none, false, false⟩ ∧
    countedPair 601 ⟨1000, 0⟩ ⟨.busy, 400, 600, 400, 600, 2⟩ ⟨1, some ⟨0, 0⟩, false, false⟩ = ⟨0, none, false, false⟩ := by decide

theorem test_witness_SetCadenceReplacesNamedEntries :
    let good : CadenceArgs := ⟨[⟨7, some .busy, 0, 20, 0, 0, 16⟩], some 49, some 201⟩
    let bad : CadenceArgs := ⟨[⟨8, some .busy, 20, 20, 0, 0, 1⟩], none, none⟩
    lineOfNat 0 = some .line0 ∧ (∀ a, Takes hd (.setCadence 0 a) ready) ∧ (∀ a, Takes hd (.setCadence 0 a) (lineAt .idle (.port .pp))) ∧
    ((lineAt .idle (.port .pp)).lc.get .line0).controller = .port (otherPort hd.port) ∧
    (ready.lc.get .line0).controller ≠ .port (otherPort hd.port) ∧ (∃ x ∈ bad.entries, ¬ x.entry < 8) ∧
    (∀ x ∈ good.entries, x.entry < 8 ∧ x.cls = some .busy ∧ clampNat 20 10000 x.onMin ≤ clampNat 20 10000 x.onMax ∧
      clampNat 0 10000 x.offMax = 0) ∧ good.entries.reverse.find? (fun y => y.entry == 7) = some ⟨7, some .busy, 0, 20, 0, 0, 16⟩ ∧
    (0 : Fin 8).val ∉ good.entries.map (fun x => x.entry) :=
  ⟨rfl, fun _ => takes _ rfl rfl, fun _ => takes _ rfl rfl, rfl, by decide, by decide, by decide, by decide, by decide⟩

theorem test_witness_DetectorsReportOnce :
    Runs ready ∧
    (let s := withSu fun u => { u with mode := .voice }
     (s.su.get .line0).mode = .voice ∧ (s.su.get .line0).heardKeypad = false ∧ (s.lc.get .line0).state ≠ .voice ∧
       (s.su.get .line0).heardData = false ∧ (s.su.get .line0).mode ≠ .tones) ∧
    (ready.su.get .line0).mode ≠ .voice ∧ ((withSu fun u => { u with heardAnswer := true }).su.get .line0).heardAnswer = true ∧
    (let s := tones
     (s.su.get .line0).mode = .tones ∧ (s.su.get .line0).heardAnswer = false ∧ (s.dq.get .line0).record.phase ≠ .awaiting ∧
       (s.su.get .line0).heardSpeech = false) ∧
    (ready.su.get .line0).generation = none ∧
    (let s := withSu fun u => { u with generation := some ⟨.beep, 400, 0, 0⟩ }
     (s.su.get .line0).generation = some ⟨.beep, 400, 0, 0⟩ ∧ s.vm.signal.get .line0 = .none ∧
       ({ s with vm := { s.vm with signal := ⟨.accept false, .none⟩ } } : State).vm.signal.get .line0 = .accept false ∧
       ({ s with vm := { s.vm with signal := ⟨.refuseFirst true, .none⟩ } } : State).vm.signal.get .line0 = .refuseFirst true) ∧
    (let s := tones fun u => { u with generation := some ⟨.keypad .hash, 80, 80, 0⟩ }
     (s.su.get .line0).generation = some ⟨.keypad .hash, 80, 80, 0⟩ ∧ (s.dq.get .line0).step ≠ .tone) ∧
    (let s := withSu fun u => { u with generation := some ⟨.answerTone, 2600, 0, 0⟩ }
     (s.su.get .line0).generation = some ⟨.answerTone, 2600, 0, 0⟩ ∧ (s.fw.get .line0).step ≠ .answerTone) := by decide

/-- Table 2-3: the needs of the six rates, and what a measure of 33 meets under the ceilings of reset. -/
theorem test_witness_TrainingsFindTheRate :
    let train := withSu fun u => { u with mode := .data, training := true }
    let on := withSu fun u => { u with mode := .data, carrier := true, watch := true }
    let off := withSu fun u => { u with mode := .faxFast, lossTimer := true }
    Runs ready ∧ (ready.fx.get .line0).role = .none ∧ ready.cl.state = .ended ∧ (train.su.get .line0).training = true ∧
    (meets (train.su.get .line0) 33 3 ∧ ∀ j, meets (train.su.get .line0) 33 j → j ≤ 3) ∧
    (meets (train.su.get .line0) 63 5 ∧ ∀ j, meets (train.su.get .line0) 63 j → j ≤ 5) ∧
    (∀ i, ¬ meets (train.su.get .line0) 7 i) ∧ (on.su.get .line0).training = false ∧ (on.su.get .line0).mode = .data ∧
    (on.su.get .line0).carrier = true ∧ (off.su.get .line0).carrier = false ∧ (off.su.get .line0).lossTimer = true ∧
    (off.su.get .line0).mode = .faxFast ∧ (ready.su.get .line0).lossTimer = false ∧
    (let u := (withSu fun u => { u with mode := .faxSlow }).su.get .line0
     u.mode = .faxSlow ∧ u.training = false ∧ u.carrier = false) := by unfold meets; decide

/-! ## Witnesses: dialling, the call queue and the store -/

/-- Line 0 in a state with its dialler as given: a dial of the CP at position 0 of `str`, in a step and a phase. -/
def dialling (st : LineState) (ph : DialPhase) (step : DialStep) (str : List DialSym) (f : SignalUnit → SignalUnit := id) : State :=
  { lineAt st (.port .cp) with
    su := ⟨f { ready.su.line0 with mode := .tones }, ready.su.line1⟩
    dq := ⟨{ record := { ready.dq.line0.record with owner := some (.port .cp), phase := ph, string := str, ringbacks := 1 },
             step := step, silence := true }, ready.dq.line1⟩ }

theorem test_witness_SymbolsAreSentInOrder :
    (let s := dialling .dialling .dialling .pause (List.replicate 40 .comma)
     Runs s ∧ (s.lc.get .line0).state = .dialling ∧ (s.su.get .line0).mode = .tones ∧
       (s.dq.get .line0).record.string.length ≤ 40 ∧ (s.dq.get .line0).step = .pause) ∧
    ((dialling .dialling .dialling .flash [.flash]).dq.get .line0).step = .flash ∧
    ((dialling .dialling .dialling .digitPause [.comma]).dq.get .line0).step = .digitPause ∧
    (let s := dialling .dialling .dialling .tone [.key .star] fun u => { u with generation := some ⟨.keypad .star, 80, 80, 0⟩ }
     (s.dq.get .line0).step = .tone ∧ (s.su.get .line0).generation = some ⟨.keypad .star, 80, 80, 0⟩) ∧
    ((dialling .dialling .dialling (.pulseBreak 10) [.key (.digit 0)]).dq.get .line0).step = .pulseBreak 10 ∧
    (let d := (dialling .dialling .dialling (.pulseMake 2) [.key (.digit 2)]).dq.get .line0
     d.step = .pulseMake 2 ∧ 1 < 2) ∧
    (let d := (dialling .dialling .dialling (.pulseMake 1) [.key (.digit 1), .comma]).dq.get .line0
     d.step = .pulseMake 1 ∧ d.record.position + 1 < d.record.string.length) ∧
    (let d := (dialling .dialling .dialling (.pulseMake 1) [.key (.digit 1)]).dq.get .line0
     d.step = .pulseMake 1 ∧ d.record.string.length ≤ d.record.position + 1) ∧
    ((dialling .dialling .dialling .none []).dq.get .line0).step = .none := by decide

theorem test_witness_CallProgressEndsTheDial :
    (let s := dialling .dialling .dialling (.dialTone true) [.comma]
     Runs s ∧ (s.dq.get .line0).record.owner = some (.port .cp) ∧ (s.lc.get .line0).entryRef = none ∧
       (s.dq.get .line0).step = .dialTone true ∧ (s.lc.get .line0).state = .dialling ∧
       (s.dq.get .line0).record.phase ≠ .awaiting) ∧
    (let s := dialling .awaiting .awaiting .none [.comma] fun u =>
       { u with onAt := some ⟨0, 0⟩, cadence := u.cadence.set 0 ⟨.busy, 20, 20, 0, 0, 1⟩ }
     (s.dq.get .line0).record.phase = .awaiting ∧ (s.lc.get .line0).state = .awaiting ∧ (s.su.get .line0).onAt.isSome = true ∧
       (s.su.get .line0).cadence[(0 : Fin 8)].offMax = 0 ∧ 0 < (s.su.get .line0).cadence[(0 : Fin 8)].repeatCount ∧
       (s.su.get .line0).counters[(0 : Fin 8)].reported = false ∧ (s.su.get .line0).cadence[(0 : Fin 8)].cls = .busy ∧
       (∀ k : Fin 8, k < 0 → (s.su.get .line0).cadence[k].onMin ≠ (s.su.get .line0).cadence[(0 : Fin 8)].onMin)) ∧
    (let s := dialling .awaiting .awaiting .none [.comma]
     (s.dq.get .line0).record.purpose = .voice ∧ (s.su.get .line0).mode = .tones ∧ (s.su.get .line0).heardAnswer = false ∧
       (s.su.get .line0).heardSpeech = false ∧ (s.dq.get .line0).silence = true ∧ 1 ≤ (s.dq.get .line0).record.ringbacks) := by
  decide

/-- DIAL's arguments for a purpose. -/
def dialArgs (p : Arg Purpose) (blind : Bool := false) : DialArgs := ⟨[some .comma], p, blind, some 16⟩

theorem test_witness_DialBeginsOrIsRefused :
    lineOfNat 0 = some .line0 ∧ (∀ a st c, Takes hd (.dial 0 a) (lineAt st c)) ∧
    ((lineAt .idle (.port .cp)).lc.get .line0).controller = .port hd.port ∧
    ((lineAt .idle (.port .cp)).lc.get .line0).state = .idle ∧ ((lineAt .idle (.port .cp)).pins.ext.get .line0) = false ∧
    ((lineAt .idle (.port .cp)).lc.get .line0).entryRef = none ∧
    (let s := { lineAt .idle (.port .cp) with pins := { ready.pins with ext := ⟨true, false⟩ } }
     Takes hd (.dial 0 (dialArgs .absent)) s ∧ s.pins.ext.get .line0 = true) ∧
    (let r := (lineAt .seized (.port .cp)).lc.get .line0
     r.state = .seized ∧ r.purpose = .none) ∧
    ((lineAt .awaiting (.port .cp)).lc.get .line0).state = .awaiting ∧ ((lineAt .voice (.port .cp)).lc.get .line0).state = .voice ∧
    (dialArgs (.val .fax)).purpose = .val .fax ∧ (dialArgs .absent).string = [DialSym.comma].map some ∧
    (1 ≤ (List.replicate 40 DialSym.comma).length ∧ (List.replicate 40 DialSym.comma).length ≤ 40) ∧
    40 < (List.replicate 41 DialSym.comma).length ∧ (dialArgs .absent true).blind = true ∧ (dialArgs .absent).blind = false ∧
    (lineAt .idle (.port .cp)).pc.cp.state = .ready ∧ ({ ready.cl with state := .opened } : LinkRec).state ≠ .ended ∧
    (let s := { lineAt .idle (.port .pp) with pc := ⟨.fresh true, ready.pc.pp⟩ }
     Takes hdp (.dial 0 (dialArgs (.val .data))) s ∧ (s.lc.get .line0).controller = .port hdp.port ∧ s.pc.cp.state ≠ .ready) :=
  ⟨rfl, fun _ _ _ => takes _ rfl rfl, rfl, rfl, rfl, rfl, ⟨takes _ rfl rfl, rfl⟩, ⟨rfl, rfl⟩, rfl, rfl, rfl, rfl, by decide,
    by decide, rfl, rfl, rfl, by decide, ⟨rfl, rfl, rfl, by decide, .inl rfl⟩, rfl, by decide⟩

/-- Events that raise a class (R33, R34): a tone-on after the last pair, and a continuous entry's minimum. -/
theorem test_witness_Raises :
    (let s := dialling .awaiting .awaiting .none [.comma] fun u =>
       { u with pairOn := some ⟨0, 0⟩, offAt := some 500, counters := u.counters.set 1 ⟨1, some ⟨0, 0⟩, false, false⟩ }
     (s.su.get .line0).mode = .tones ∧ (s.su.get .line0).generation = none ∧ Raises .line0 (s.su.get .line0) .busy (.toneOn .line0 1000)) ∧
    (let s := dialling .awaiting .awaiting .none [.comma] fun u => { u with pairOn := some ⟨0, 0⟩, offAt := some 1000 }
     Raises .line0 (s.su.get .line0) .ringback (.toneOn .line0 3500) ∧ (s.dq.get .line0).record.limit = 8 ∧
       min 255 ((s.dq.get .line0).record.ringbacks + 1) ≤ (s.dq.get .line0).record.limit) ∧
    (let s := dialling .dialling .dialling (.dialTone false) [.wait, .comma] fun u => { u with onAt := some ⟨0, 0⟩ }
     Raises .line0 (s.su.get .line0) .dial (.continuousCadence .line0 0) ∧ (s.dq.get .line0).record.phase = .dialling) := by
  refine ⟨⟨rfl, rfl, .inl ⟨1000, 1, rfl, rfl, rfl, rfl, rfl, ⟨⟨0, 0⟩, 500, rfl, rfl, by decide⟩, ?_⟩⟩,
    ⟨.inl ⟨3500, 2, rfl, rfl, rfl, rfl, rfl, ⟨⟨0, 0⟩, 1000, rfl, rfl, by decide⟩, ?_⟩, rfl, by decide⟩,
    ⟨.inr ⟨0, rfl, rfl, rfl, rfl, by decide, rfl, fun k h => absurd h (Fin.not_lt_zero k)⟩, rfl⟩⟩
  · intro k hk
    obtain rfl : k = 0 := by omega
    exact ⟨fun ⟨_, _, _, _, _, _, h, _⟩ => absurd h (by decide), by decide⟩
  · intro k hk
    obtain rfl | rfl : k = 0 ∨ k = 1 := by omega
    · exact ⟨fun ⟨_, _, _, _, _, _, h, _⟩ => absurd h (by decide), by decide⟩
    · refine ⟨?_, by decide⟩
      rintro ⟨m, a, h1, h2, h3, h4, h5, h6, h7, h8⟩
      obtain rfl : (1000 : Nat) = a := Option.some.inj h2
      exact absurd h7 (by decide)

/-- The store of `ready` with an entry in slot 0. -/
def withEntry0 (f : DirEntry → DirEntry) (hs : List Handle := []) : State :=
  { ready with store := { ready.store with dir := ready.store.dir.set 0 (f .free), handles := hs } }

/-- The call queue of `ready` with an entry in slot 0. -/
def withCall (f : QueueEntry → QueueEntry) : State := { ready with queue := ready.queue.set 0 (f .empty) }

def callArgs (p : QueuePurpose) (m : Option Nat) : QueueArgs := ⟨[some .comma], false, some p, m, .absent, some 86401, some 0, none, none⟩

theorem test_witness_CallsAreQueued :
    (∀ a, Takes hd (.queueCall a) ready) ∧ (callArgs .ringOnly none).string = [DialSym.comma].map some ∧
    (callArgs .ringOnly none).pref ≠ .bad ∧ ready.queue[(0 : Fin 8)].state = .empty ∧
    (∀ k : Fin 8, k < 0 → ready.queue[k].state ≠ .empty) ∧ (callArgs .ringOnly none).message = none ∧
    (let s := withEntry0 fun e => { e with kind := .faxOut, state := .complete }
     Takes hd (.queueCall (callArgs .faxSend (some 0))) s ∧ (callArgs .faxSend (some 0)).message = some (0 : Fin 128).val ∧
       s.store.dir[(0 : Fin 128)].state = .complete ∧ s.store.dir[(0 : Fin 128)].kind.isFax = true) ∧
    (let s := withEntry0 fun e => { e with kind := .voice, state := .complete }
     s.store.dir[(0 : Fin 128)].state = .complete ∧ s.store.dir[(0 : Fin 128)].kind.isVoice = true) ∧
    ready.store.dir[(0 : Fin 128)].state = .free ∧
    (∀ f, Takes hd (.cancelCall (0 : Fin 8).val) (withCall f)) ∧ (∀ f, Takes hd (.removeCall (0 : Fin 8).val) (withCall f)) ∧
    (withCall fun e => { e with state := .waiting }).queue[(0 : Fin 8)].state = .waiting ∧
    (withCall fun e => { e with state := .waiting }).store.handle? (.entry 0) = none ∧
    (withCall fun e => { e with state := .done }).queue[(0 : Fin 8)].state = .done ∧ Takes hd .listCalls ready :=
  ⟨fun _ => takes _ rfl rfl, rfl, by decide, rfl, by decide, rfl, ⟨takes _ rfl rfl, rfl, rfl, rfl⟩, ⟨rfl, rfl⟩, rfl,
    fun _ => takes _ rfl rfl, fun _ => takes _ rfl rfl, rfl, rfl, rfl, takes _ rfl rfl⟩

/-- A queued call in a state on line 0, whose line and dial are as given (R62). -/
def queuedOn (st : QueueState) (p : QueuePurpose) (ls : LineState) (ph : DialPhase) : State :=
  { withCall fun e => { e with state := st, purpose := p, line := some .line0, attemptLimit := 3 } with
    lc := ⟨{ ready.lc.line0 with state := ls, hook := true, controller := .automatic, entryRef := some 0 }, ready.lc.line1⟩
    dq := ⟨{ ready.dq.line0 with record := { ready.dq.line0.record with owner := some (.entry 0), phase := ph } }, ready.dq.line1⟩ }

/-- A queue with all eight calls active, one with all eight over, CANCEL of a call at work, and of one waiting with its handle (R56, R62). -/
theorem test_witness_FullQueues :
    (let s := { ready with queue := Vector.replicate 8 { QueueEntry.empty with state := .waiting } }
     Takes hd (.queueCall (callArgs .ringOnly none)) s ∧ ∀ k : Fin 8, s.queue[k].state = .waiting) ∧
    (let q := (Vector.replicate 8 { QueueEntry.empty with state := .done, finish := some 7 }).set 3
       { QueueEntry.empty with state := .failed, finish := some 2 }
     callOver q[(3 : Fin 8)] ∧ (∀ k : Fin 8, q[k].state ≠ .empty) ∧
       ∀ k : Fin 8, k ≠ 3 → callOver q[k] → (q[(3 : Fin 8)].finish).getD 0 < (q[k].finish).getD 0) ∧
    (let s := queuedOn .dialling .faxSend .awaiting .awaiting
     Takes hd (.cancelCall (0 : Fin 8).val) s ∧ s.queue[(0 : Fin 8)].state = .dialling ∧ s.queue[(0 : Fin 8)].line = some .line0 ∧
       (s.lc.get .line0).entryRef = some 0 ∧ (s.lc.get .line0).state.offHook = true ∧ (s.lc.get .line0).state = .awaiting ∧
       (s.dq.get .line0).record.owner = some (.entry 0)) ∧
    (let s := queuedOn .inCall .data .data .idle
     s.queue[(0 : Fin 8)].state = .inCall ∧ (s.lc.get .line0).state.offHook = true) ∧
    (let s := { withCall (fun e => { e with state := .waiting, purpose := .voiceDeliver, message := some 0 }) with
       store := (withEntry0 (fun e => { e with kind := .voice, state := .complete }) [⟨.entry 0, 0, false, 0⟩]).store }
     s.store.handle? (.entry 0) = some ⟨.entry 0, 0, false, 0⟩ ∧ s.store.dir[(0 : Fin 128)].state ≠ .deletePending) := by
  refine ⟨⟨takes _ rfl rfl, by decide⟩, by unfold callOver; decide, ⟨takes _ rfl rfl, rfl, rfl, rfl, rfl, rfl, rfl⟩, by decide, by decide⟩

theorem test_witness_CallsAreDispatchedAndRetried :
    (let s := withCall fun e => { e with state := .waiting, pref := .either }
     let e := s.queue[(0 : Fin 8)]
     Runs s ∧ e.state = .waiting ∧ e.earliest ≤ s.queueTime ∧ e.purpose = .ringOnly ∧
       (∀ m : Fin 8, m ≠ 0 → s.queue[m].state ≠ .waiting) ∧ s.store.handle? (.entry 0) = none ∧ e.blind = false ∧
       s.pins.ext.get .line0 = false ∧ (s.lc.get .line0).caller = none ∧ (s.lc.get .line0).state = .idle ∧
       (s.lc.get .line0).controller = .none ∧ (s.dq.get .line0).record.phase = .idle ∧
       (s.lc.get .line0).policy.outgoing = true ∧ (s.lc.get .line0).ringWait = false ∧ e.pref ≠ .line1) ∧
    ready.queue[(0 : Fin 8)].state ≠ .waiting ∧
    (let s := withCall fun e => { e with state := .waiting, earliest := 1 }
     s.queueTime < s.queue[(0 : Fin 8)].earliest) ∧
    (let s := fun (k : Nat) => { withCall (fun e => { e with state := .dialling, purpose := .data, attempts := k, attemptLimit := 3 }) with
        lc := ⟨{ ready.lc.line0 with state := .awaiting, controller := .automatic, entryRef := some 0 }, ready.lc.line1⟩
        dq := ⟨{ ready.dq.line0 with record := { ready.dq.line0.record with owner := some (.entry 0), phase := .awaiting } }, ready.dq.line1⟩ }
     Runs (s 1) ∧ ((s 1).dq.get .line0).record.owner = some (.entry 0) ∧ ((s 1).dq.get .line0).record.phase = .awaiting ∧
       ((s 1).lc.get .line0).state = .awaiting ∧ ((s 1).lc.get .line0).entryRef = some 0 ∧
       (s 1).queue[(0 : Fin 8)].state = .dialling ∧ (s 1).queue[(0 : Fin 8)].purpose ≠ .ringOnly ∧
       (s 1).queue[(0 : Fin 8)].message = none ∧ (s 1).store.handle? (.entry 0) = none ∧
       (s 1).queue[(0 : Fin 8)].attempts + 1 < (s 1).queue[(0 : Fin 8)].attemptLimit ∧
       (s 2).queue[(0 : Fin 8)].attemptLimit ≤ (s 2).queue[(0 : Fin 8)].attempts + 1) := by decide

/-- The four handles of the CP, on entry 0. -/
def cpHandles : List Handle := [⟨.port .cp 0, 0, false, 0⟩, ⟨.port .cp 1, 0, false, 0⟩, ⟨.port .cp 2, 0, false, 0⟩, ⟨.port .cp 3, 0, false, 0⟩]

theorem test_witness_EntriesAreOpenedMarkedAndDeleted :
    128 ≤ 128 ∧ (∀ c, Takes hd c ready) ∧ (∀ f hs c, Takes hd c (withEntry0 f hs)) ∧
    ready.store.dir[(0 : Fin 128)].state = .free ∧
    (let s := withEntry0 fun e => { e with state := .complete }
     s.store.dir[(0 : Fin 128)].state = .complete ∧ s.store.dir[(0 : Fin 128)].kind = .callNote ∧
       s.store.dir[(0 : Fin 128)].guarded = false ∧ (∀ q : Fin 8, s.queue[q].message ≠ some 0) ∧ s.store.openCount 0 = 0 ∧
       s.store.dir[(0 : Fin 128)].pageList.Nodup ∧ (∀ k ∈ s.store.dir[(0 : Fin 128)].pageList, s.store.pages[k].owner = 0)) ∧
    (let s := withEntry0 (fun e => { e with state := .complete, kind := .faxIn }) cpHandles
     s.store.dir[(0 : Fin 128)].kind ≠ .callNote ∧ (∀ k, (s.store.handle? (.port hd.port k)).isSome = true) ∧
       s.store.openCount 0 ≠ 0) ∧
    (let s := withEntry0 (fun e => { e with state := .writing, kind := .voice }) (cpHandles.take 3)
     s.store.dir[(0 : Fin 128)].kind ≠ .callNote ∧ s.store.handle? (.port hd.port 3) = none ∧
       (∀ j : Fin 4, j < 3 → (s.store.handle? (.port hd.port j)).isSome = true) ∧ s.store.dir[(0 : Fin 128)].state = .writing ∧
       s.store.handle? (.port hd.port 0) = some ⟨.port .cp 0, 0, false, 0⟩ ∧
       (s.st.get hd.port).outb.binding ≠ some (.handle 0) ∧ (s.st.get hd.port).inb.binding ≠ some (.handle 0) ∧
       s.store.dir[(0 : Fin 128)].state ≠ .deletePending) ∧
    (let s := { withEntry0 id cpHandles with st := ⟨⟨ready.st.cp.inb, { ready.st.cp.outb with binding := some (.handle 0) }⟩, ready.st.pp⟩ }
     (s.st.get hd.port).outb.binding = some (.handle 0) ∧ Takes hd (.close 0) s ∧
       s.store.handle? (.port hd.port 0) = some ⟨.port .cp 0, 0, false, 0⟩) ∧
    4 ≤ 4 ∧ ready.store.handle? (.port hd.port 3) = none ∧
    (withEntry0 fun e => { e with state := .complete, guarded := true }).store.dir[(0 : Fin 128)].guarded = true ∧
    (withEntry0 fun e => { e with state := .complete, kind := .greeting }).store.dir[(0 : Fin 128)].kind = .greeting :=
  ⟨by decide, fun _ => takes _ rfl rfl, fun _ _ _ => takes _ rfl rfl, rfl,
    ⟨rfl, rfl, rfl, by decide, rfl, by decide, fun _ h => nomatch (show _ ∈ ([] : List (Fin 256)) from h)⟩, by decide, by decide,
    ⟨rfl, takes _ rfl rfl, rfl⟩, by decide, rfl, rfl, rfl⟩

theorem test_witness_EraseStore :
    Takes hd .eraseStore ready ∧ ready.store.handles = [] ∧ (∀ n : Fin 128, ready.store.dir[n].state ≠ .writing) ∧
    Takes hd .eraseStore (withEntry0 id cpHandles) ∧ (withEntry0 id cpHandles).store.handles ≠ [] ∧
    Takes hd .eraseStore (withEntry0 fun e => { e with state := .writing }) ∧
    (withEntry0 fun e => { e with state := .writing }).store.dir[(0 : Fin 128)].state = .writing :=
  ⟨takes _ rfl rfl, rfl, fun n => by rw [test_free_dir n]; decide, takes _ rfl rfl, by decide, takes _ rfl rfl, rfl⟩

theorem test_witness_StoreIsReportedAndErased :
    Takes hd .storeStatus ready ∧ Takes hd (.setReserve 256) ready ∧ Takes hd (.listMessages (some .voice) (some 4)) ready ∧
    (∀ n : Fin 128, ready.store.dir[n].state ≠ .free → (ready.store.dir[n].seqNo - 0).toNat < 2147483648) ∧
    (let s := withEntry0 fun e => { e with state := .writing, kind := .faxIn }
     Takes hd (.messageInfo (0 : Fin 128).val) s ∧ s.store.dir[(0 : Fin 128)].state = .writing) :=
  ⟨takes _ rfl rfl, takes _ rfl rfl, takes _ rfl rfl, fun n h => absurd (by rw [test_free_dir n]; rfl) h, takes _ rfl rfl, rfl⟩

theorem test_witness_ClockCountsTheYear :
    Takes hd (.setClock ⟨2, 30, 24, 60, 60⟩) ready ∧ Takes hd .readClock ready ∧ ClockOk ready.tod.time ∧ ClockOk ⟨12, 31, 23, 59, 59⟩ :=
  ⟨takes _ rfl rfl, takes _ rfl rfl, by unfold ClockOk; decide, by unfold ClockOk; decide⟩

/-- R89: the second after 29 February 23:59:59 is 1 March, and the one after the year's last its first. -/
theorem test_clock_carry :
    exec .clockTick { State.reset with tod := ⟨⟨2, 29, 23, 59, 59⟩, true⟩ } =
      .next { State.reset with tod := ⟨⟨3, 1, 0, 0, 0⟩, true⟩ } ∧
    exec .clockTick { State.reset with tod := ⟨⟨12, 31, 23, 59, 59⟩, true⟩ } =
      .next { State.reset with tod := ⟨⟨1, 1, 0, 0, 0⟩, true⟩ } := ⟨rfl, rfl⟩

theorem test_witness_ArbiterServesInOrder :
    let busy := fun v => { ready with arb := { ready.arb with current := some v } }
    ready.arb.current = none ∧ Runs ready ∧ (busy .refresh).arb.current = some .refresh ∧
    ({ busy .refresh with standby := true } : State).standby = true ∧
    (let s := { busy (.line (.voice .l0)) with
       vp := ⟨{ ready.vp.l0 with activity := .recording, other := { ready.vp.l0.other with block := some 2048 } }, ready.vp.l1, ready.vp.loc⟩ }
     Runs s ∧ s.arb.current = some (.line (.voice .l0)) ∧ burstBlock s (.line (.voice .l0)) = some 2048 ∧ s.store.nBlocks ≤ 2048) ∧
    ({ ready with arb := { ready.arb with refresh := true } } : State).arb.refresh = true ∧
    ready.arb.refresh = false ∧
    (let s := { ready with
       vp := ⟨ready.vp.l0, { ready.vp.l1 with activity := .recording, other := { ready.vp.l1.other with block := some 0 } }, ready.vp.loc⟩ }
     s.arb.current = none ∧ rotation s.arb.lastLine lineClients = [.voice .l0] ++ .voice .l1 :: [.voice .loc, .fax .line0, .fax .line1] ∧
       (∀ x ∈ [LineClient.voice .l0], linePending s x = false) ∧ linePending s (.voice .l1) = true) ∧
    (linePending ready (.voice .l0) = false ∧ linePending ready (.voice .l1) = false ∧ linePending ready (.voice .loc) = false ∧
      linePending ready (.fax .line0) = false ∧ linePending ready (.fax .line1) = false) ∧
    (streamPending ready ⟨.cp, .inbound⟩ = false ∧ streamPending ready ⟨.cp, .outbound⟩ = false ∧
      streamPending ready ⟨.pp, .inbound⟩ = false ∧ streamPending ready ⟨.pp, .outbound⟩ = false) := by decide

/-- A stream with a burst to bring, and no line client (R87). -/
theorem test_witness_ArbiterServesStreams :
    let s := { withEntry0 (fun e => { e with kind := .faxIn, state := .complete, length := 64, committed := 64, blocks := [⟨0, 0⟩] })
        [⟨.port .cp 0, 0, false, 0⟩] with
      st := ⟨⟨ready.st.cp.inb, { ready.st.cp.outb with state := .active, binding := some (.handle 0), credit := 1 }⟩, ready.st.pp⟩ }
    (linePending s (.voice .l0) = false ∧ linePending s (.voice .l1) = false ∧ linePending s (.voice .loc) = false ∧
      linePending s (.fax .line0) = false ∧ linePending s (.fax .line1) = false) ∧
    rotation s.arb.lastStream streamClients =
      [⟨.cp, .inbound⟩] ++ ⟨.cp, .outbound⟩ :: [⟨.pp, .inbound⟩, ⟨.pp, .outbound⟩] ∧
    streamPending s ⟨.cp, .inbound⟩ = false ∧ streamPending s ⟨.cp, .outbound⟩ = true := by decide

/-- A burst in progress of line 0's context: its buffer in transfer to or from block 2047, `k` bursts served. -/
def bursting (a : Activity) (k : Nat) (primed : Bool := false) : State :=
  { ready with
    arb := { ready.arb with current := some (.line (.voice .l0)) }
    vp := ⟨{ ready.vp.l0 with activity := a, entry := some 0, primed := primed, burst := true, other := ⟨[], some 2047, 1008, k⟩ },
           ready.vp.l1, ready.vp.loc⟩ }

/-- A burst in progress of a stream of the CP on a FAX-OUT entry whose first 64 bytes lie in block 9. -/
def streamBurst (d : Dir) (f : Streams → Streams) : State :=
  { withEntry0 (fun e => { e with kind := .faxOut, state := .writing, length := 512, committed := 512, blocks := [⟨9, 0⟩] })
      [⟨.port .cp 2, 0, false, 448⟩] with
    arb := { ready.arb with current := some (.stream ⟨.cp, d⟩) }
    st := ⟨f ready.st.cp, ready.st.pp⟩ }

theorem test_witness_BurstsMoveBytes :
    (let s := bursting .recording 6
     Runs s ∧ s.arb.current = some (.line (.voice .l0)) ∧ (s.vp.get .l0).other.block = some 2047 ∧ 2047 < s.store.nBlocks ∧
       (s.vp.get .l0).burst = true ∧ (s.vp.get .l0).activity = .recording ∧ (s.vp.get .l0).other.served < 7) ∧
    (let v := (bursting .recording 7).vp.get .l0
     v.other.served = 7 ∧ v.lateDrop = none ∧ v.entry = some 0) ∧
    ((bursting .playing 6).vp.get .l0).other.served < 7 ∧ ((bursting .playing 7 true).vp.get .l0).primed = true ∧
    (let s := streamBurst .inbound fun t =>
       { t with inb := { t.inb with state := .active, binding := some (.handle 2), written := 448, slots := [List.replicate 64 1], burst := true } }
     let i := (s.st.get .cp).inb
     Runs s ∧ s.arb.current = some (.stream ⟨.cp, .inbound⟩) ∧ burstInside s = true ∧
       s.store.handle? (.port .cp 2) = some ⟨.port .cp 2, 0, false, 448⟩ ∧ i.state = .active ∧ i.burst = true ∧ i.binding = some (.handle 2) ∧
       s.store.dir[(0 : Fin 128)].kind = .faxOut ∧ i.written % 64 = 0 ∧ i.slots = List.replicate 64 1 :: [] ∧
       (List.replicate 64 (1 : Byte)).length = 64) ∧
    (let s := streamBurst .outbound fun t => { t with outb := { t.outb with state := .active, binding := some (.handle 2), burst := true } }
     let o := (s.st.get .cp).outb
     Runs s ∧ s.arb.current = some (.stream ⟨.cp, .outbound⟩) ∧ burstInside s = true ∧ o.state = .active ∧
       o.burst = true ∧ o.binding = some (.handle 2) ∧ o.buffer.length ≤ 448 ∧ 448 % 512 ≤ 448 ∧ 448 + 64 ≤ s.store.dir[(0 : Fin 128)].committed) := by
  refine ⟨by decide, by decide, by decide, by decide, ⟨rfl, rfl, by decide, rfl, rfl, rfl, rfl, rfl, rfl, rfl, List.length_replicate⟩, by decide⟩

/-- A burst begun for an operation that has ended serves no client any more (R87). -/
theorem test_witness_IdleBursts :
    let s := { bursting .recording 6 with vp := ready.vp }
    Runs s ∧ s.arb.current = some (.line (.voice .l0)) ∧ burstInside s = true ∧ burstServes (.line (.voice .l0)) s = false := by decide

/-- A voice write that completes, with and without a reader at its length, and a greeting (R77, R81, R82). -/
theorem test_witness_CompletedWrites :
    (let s := withEntry0 (fun e => { e with kind := .voice, state := .writing, mailbox := some 4, length := 8000 })
       [⟨.lineWrite .line0, 0, true, 0⟩]
     s.store.dir[(0 : Fin 128)].state = .writing ∧ s.store.dir[(0 : Fin 128)].mailbox = some 4 ∧
       s.store.dir[(0 : Fin 128)].kind = .voice ∧ s.store.dir[(0 : Fin 128)].reviewed = false ∧
       ¬ ∃ x ∈ s.store.handles, x.entry = 0 ∧ x.write = false ∧ x.pos = s.store.dir[(0 : Fin 128)].length) ∧
    (let s := withEntry0 (fun e => { e with kind := .voice, state := .writing, mailbox := some 4, length := 8000 })
       [⟨.lineWrite .line0, 0, true, 0⟩, ⟨.port .cp 0, 0, false, 8000⟩]
     (∃ x ∈ s.store.handles, x.entry = 0 ∧ x.write = false ∧ x.pos = s.store.dir[(0 : Fin 128)].length) ∧
       0 < s.store.dir[(0 : Fin 128)].length) ∧
    (let s := withEntry0 fun e => { e with kind := .greeting, state := .writing, mailbox := some 0 }
     s.store.dir[(0 : Fin 128)].kind = .greeting ∧ s.store.dir[(0 : Fin 128)].pageList = [] ∧
       (∀ q : Fin 8, s.queue[q].state ≠ .waiting)) := by decide

/-- A full directory with one reviewed call note, and one with none (R68). -/
def fullDir (reviewed : Bool) : Store :=
  { ready.store with dir := Vector.replicate 128 { DirEntry.free with
      kind := .callNote, state := .complete, reviewed := reviewed } }

theorem test_witness_CallNotes :
    ready.store.dir[(0 : Fin 128)].state = .free ∧ (∀ k : Fin 128, k < 0 → ready.store.dir[k].state ≠ .free) ∧
    (∀ (b : Bool) (k : Fin 128), (fullDir b).dir[k].state ≠ .free) ∧
    (∀ k : Fin 128, ¬ ((fullDir false).dir[k].kind = .callNote ∧ (fullDir false).dir[k].state = .complete ∧
      (fullDir false).dir[k].reviewed = true)) ∧
    (let st := { fullDir false with dir := (fullDir false).dir.set 5 { DirEntry.free with kind := .callNote, state := .complete, reviewed := true } }
     st.dir[(5 : Fin 128)].kind = .callNote ∧ st.dir[(5 : Fin 128)].state = .complete ∧ st.dir[(5 : Fin 128)].reviewed = true ∧
       st.dir[(5 : Fin 128)].pageList = []) :=
  ⟨rfl, fun k h => absurd h (Fin.not_lt_zero k), fun b k => by simp [fullDir], fun k => by simp [fullDir], by decide⟩
/-! ## Witnesses: voice -/

/-- Line 0's context as given, LOCAL's speaker with nobody. -/
def withVoice (f : VoiceCtx → VoiceCtx) : State := { ready with vp := ⟨f ready.vp.l0, ready.vp.l1, ready.vp.loc⟩ }

theorem test_witness_SamplesAreCodedAndPlayed :
    (let v := ready.vp.get (ctxOf .line0)
     Runs ready ∧ v.activity = .idle ∧ ready.vm.holder ≠ .screen .line0 ∧ ready.vm.holder ≠ .bridge .line0) ∧
    (let s := { ready with vm := { ready.vm with holder := .bridge .line0 } }
     s.vm.holder = .bridge .line0 ∧ s.vm.holder ≠ .screen .line0 ∧ s.vp.loc.activity = .idle) ∧
    (let v := (withVoice fun v => { v with activity := .recording, entry := some 0, format := ⟨.q4, .r9600, some .alt⟩, held := [5, 7], pos := 60,
                                           frameCount := 191, fill := 1007 }).vp.get (ctxOf .line0)
     v.activity = .recording ∧ v.entry = some 0 ∧ v.format.rate = .r9600 ∧ v.held = [5, 7] ∧ v.pos = 60 ∧ v.lateDrop = none ∧
       v.frameCount < 192 ∧ v.maxLength = 0 ∧ 0 < v.fill ∧ v.fill < blockSamples v.format.code) ∧
    (let v := (withVoice fun v => { v with activity := .playing, format := ⟨.q8, .r9600, none⟩, held := [5, 7] }).vp.get (ctxOf .line0)
     v.activity = .playing ∧ v.format.rate = .r9600 ∧ v.held = [5, 7] ∧ v.pos = 0 ∧ v.ended = false) ∧
    (let s := withVoice fun v => { v with activity := .recording, frameCount := 192, frameSum := 30720, silenceTime := 6000 }
     let v := s.vp.get .l0
     v.activity = .recording ∧ 192 ≤ v.frameCount ∧ (∀ l ∈ [LineId.line0, .line1], CtxId.l0 = ctxOf l →
       (s.vm.session.get l).classification = false) ∧ 192 * v.settings.threshold ≤ v.frameSum ∧ 0 < v.silenceTime) ∧
    (let v := (withVoice fun v => { v with activity := .recording, frameCount := 192, frameSum := 30719, silenceRun := 298,
                                           silenceTime := 6000 }).vp.get .l0
     v.frameSum < 192 * v.settings.threshold ∧ min 65535 (v.silenceRun + 1) * 20 < v.silenceTime) ∧
    (ready.vp.get .l0).activity ≠ .recording ∧ (ready.vp.get .l0).frameCount < 192 := by
  refine ⟨by decide, by decide, by decide, by decide, by decide, by decide, by decide, by decide⟩

def voiceArgs : VoiceArgs := ⟨some 32, none, .val .r9600, .absent, .absent, some 2048, .absent, some 999, some 601, .absent⟩

theorem test_witness_SetVoice :
    Takes hd (.setVoice (some .l0) voiceArgs) ready ∧ voiceBad .l0 voiceArgs = false ∧
    (¬ ∃ l, CtxId.l0 = ctxOf l ∧ (ready.lc.get l).controller = .port (otherPort hd.port)) ∧
    voiceBad .l0 { voiceArgs with code := .bad } = true ∧ Takes hd (.setVoice (some .l0) voiceArgs) (lineAt .idle (.port .pp)) ∧
    (∃ l, CtxId.l0 = ctxOf l ∧ ((lineAt .idle (.port .pp)).lc.get l).controller = .port (otherPort hd.port)) := by
  refine ⟨takes _ rfl rfl, by decide, ?_, by decide, takes _ rfl rfl, .line0, rfl, rfl⟩
  rintro ⟨l, _, h⟩; cases l <;> cases h

theorem test_witness_VoiceBlocksTakeTheirTurn :
    (let s := { withVoice (fun v => { v with activity := .recording, entry := some 0, fill := 1008 }) with
       store := { ready.store with fresh := 2048, returned := [2047], reserve := 0 } }
     let v := s.vp.get .l0
     Runs s ∧ v.activity = .recording ∧ v.entry = some 0 ∧ v.lateDrop = none ∧ blockSamples v.format.code ≤ v.fill ∧
       v.other.block = none ∧ s.store.freeList = 2047 :: [] ∧ s.store.reserve < s.store.freeList.length) ∧
    (withVoice fun v => { v with activity := .recording, fill := 1007 }).vp.l0.fill < blockSamples .q4 ∧
    (let v := (withVoice fun v => { v with fill := 1008, other := ⟨[], some 0, 1008, 0⟩,
                                           settings := { v.settings with continueLate := true } }).vp.get .l0
     blockSamples v.format.code ≤ v.fill ∧ v.other.block.isSome = true ∧ v.settings.continueLate = true) ∧
    (let s := fun (k : Nat) => { withEntry0 (fun e => { e with state := .writing, kind := .voice, committed := k, blocks := [⟨5, 1008⟩] })
         [⟨.localPlay, 0, false, 0⟩] with
       vp := ⟨ready.vp.l0, ready.vp.l1, { ready.vp.loc with activity := .playing, waiting := true, holder := some .localPlay }⟩ }
     Runs (s 0) ∧ ((s 0).vp.get .loc).activity = .playing ∧ ((s 0).vp.get .loc).waiting = true ∧
       ((s 0).vp.get .loc).holder = some .localPlay ∧ (s 0).store.handle? .localPlay = some ⟨.localPlay, 0, false, 0⟩ ∧
       ((s 0).vp.get .loc).other.block = none ∧ (s 0).store.dir[(0 : Fin 128)].state = .writing ∧
       (s 0).store.dir[(0 : Fin 128)].committed ≤ 0 ∧ 0 < (s 1008).store.dir[(0 : Fin 128)].committed ∧
       blockAt (s 1008).store.dir[(0 : Fin 128)].blocks 0 0 0 = some (0, ⟨5, 1008⟩)) := by decide

/-- Line 0's context recording or playing entry 0 for the CP, which controls the line, in VOICE. -/
def operating (f : VoiceCtx → VoiceCtx) (kind : EntryState) (hs : List Handle) (op : VoiceOp) : State :=
  { withEntry0 (fun e => { e with state := kind, kind := .voice }) hs with
    vp := ⟨f ready.vp.l0, ready.vp.l1, ready.vp.loc⟩
    lc := (lineAt .voice (.port .cp)).lc
    su := ⟨{ ready.su.line0 with mode := .voice }, ready.su.line1⟩
    vm := { ready.vm with report := ⟨{ ready.vm.report.l0 with op := op }, ready.vm.report.l1, ready.vm.report.loc⟩ } }

theorem test_witness_PortOperationsEnd :
    (let s := operating (fun v => { v with activity := .recording, entry := some 0, maxLength := 10, lineCount := 96000 }) .writing [] .record
     Runs s ∧ (s.vp.get .l0).activity = .recording ∧ (s.vp.get .l0).entry = some 0 ∧ s.store.dir[(0 : Fin 128)].kind = .voice ∧
       s.store.dir[(0 : Fin 128)].state = .writing ∧ (s.vm.session.get .line0).phase = .none ∧ s.vm.pendingRecord.get .line0 = none ∧
       (s.vp.get .l0).maxLength ≠ 0 ∧ Takes hd (.stop (some .l0)) s ∧ (s.lc.get .line0).controller = .port hd.port ∧
       (s.vm.holder ≠ .context) ∧ (s.lc.get .line0).state = .voice ∧ (s.su.get .line0).mode = .voice ∧
       (s.su.get .line0).heardKeypad = false) ∧
    10 * 9600 ≤ 96000 ∧ (ready.vp.get .l0).maxLength = 0 ∧ (∀ l, CtxId.l0 = ctxOf l → l = .line0) ∧
    (let s := operating (fun v => { v with activity := .playing, ended := true, held := [0], pos := 60 }) .complete
       [⟨playHolder .l0, 0, false, 0⟩] .play
     Runs s ∧ (s.vp.get .l0).activity = .playing ∧ (s.vm.report.get .l0).op = .play ∧ s.vm.pendingRecord.get .line0 = none ∧
       s.store.handle? (playHolder .l0) = some ⟨playHolder .l0, 0, false, 0⟩ ∧ s.store.dir[(0 : Fin 128)].state ≠ .deletePending ∧
       (s.vp.get .l0).ended = true ∧ 60 * (s.vp.get .l0).held.length ≤ (s.vp.get .l0).pos ∧ Takes hd (.stop (some .l0)) s) ∧
    (let s := lineAt .voice (.port .cp)
     Takes hd (.stop (some .l0)) s ∧ (s.vp.get .l0).activity = .idle ∧ (s.lc.get .line0).controller = .port hd.port ∧
       s.vm.localPort ≠ some (otherPort hd.port)) :=
  ⟨⟨rfl, rfl, rfl, rfl, rfl, rfl, rfl, by decide, takes _ rfl rfl, rfl, by decide, rfl, rfl, rfl⟩, by decide, rfl,
    (by intro l h; cases l; rfl; cases h),
    ⟨rfl, rfl, rfl, rfl, by decide, by decide, rfl, by decide, takes _ rfl rfl⟩, takes _ rfl rfl, rfl, rfl, by decide⟩

theorem test_witness_PortOperationsBegin :
    (∀ f hs c, Takes hd c (withEntry0 f hs)) ∧ (∀ c, Takes hd c ready) ∧ ready.store.dir[(0 : Fin 128)].state = .free ∧
    (let s := withEntry0 fun e => { e with state := .complete, kind := .faxIn }
     s.store.dir[(0 : Fin 128)].state = .complete ∧ s.store.dir[(0 : Fin 128)].kind.isVoice = false) ∧
    (let s := withEntry0 fun e => { e with state := .writing, kind := .voice }
     s.store.dir[(0 : Fin 128)].state = .writing ∧ s.store.dir[(0 : Fin 128)].kind.isVoice = true ∧ s.vp.loc.activity = .idle ∧
       s.vm.holder = .none ∧ s.store.handle? .localPlay = none) ∧
    (let s := { withEntry0 (fun e => { e with state := .complete, kind := .voice }) with vm := { ready.vm with holder := .bridge .line1 } }
     s.vm.holder = .bridge .line1 ∧ Takes hd (.play (some .loc) 0 0) s) ∧
    (let a : RecordArgs := ⟨some .loc, .absent, some 4, false⟩
     a.target = some .loc ∧ a.beep = false ∧ a.kind = .absent ∧ a.mailbox.getD 0 = (4 : Fin 5).val) ∧
    ready.store.reserve < ready.store.free ∧ (∀ k : Fin 128, k < 0 → ready.store.dir[k].state ≠ .free) ∧
    (let s := { ready with store := { ready.store with fresh := 1984 } }
     s.store.free ≤ s.store.reserve ∧ Takes hd (.record ⟨some .loc, .absent, none, false⟩) s) ∧
    (let s := { ready with store := { ready.store with dir := Vector.replicate 128 { DirEntry.free with state := .complete } } }
     ∀ k : Fin 128, s.store.dir[k].state ≠ .free) ∧
    (let s := lineAt .voice (.port .cp)
     lineOfNat 0 = some .line0 ∧ (s.lc.get .line0).controller = .port hd.port ∧ Takes hd (.connectLocal 0 true) s ∧
       (s.vp.get (ctxOf .line0)).activity = .idle ∧ s.vm.pendingRecord.get .line0 = none ∧ (s.lc.get .line0).state = .voice ∧
       s.vm.holder = .none ∧ Takes hd (.connectLocal 0 false) s ∧ (s.lc.get .line0).state ≠ .talk) ∧
    (let s := lineAt .talk (.port .cp)
     (s.lc.get .line0).state = .talk ∧ Takes hd (.connectLocal 0 false) s) :=
  ⟨fun _ _ _ => takes _ rfl rfl, fun _ => takes _ rfl rfl, rfl, by decide, by decide, ⟨rfl, takes _ rfl rfl⟩, by decide, by decide,
    by decide, ⟨by decide, takes _ rfl rfl⟩, fun k => by simp,
    ⟨rfl, rfl, takes _ rfl rfl, rfl, rfl, rfl, rfl, takes _ rfl rfl, by decide⟩, rfl, takes _ rfl rfl⟩

/-- Line 0 in VOICE with a session, its unit in VOICE, the code being 1234. -/
def sessionLine (f : Session → Session) : State :=
  { lineAt .voice .automatic with
    su := ⟨{ ready.su.line0 with mode := .voice }, ready.su.line1⟩
    vm := { ready.vm with session := ⟨f ready.vm.session.line0, ready.vm.session.line1⟩, accessCode := some [1, 2, 3, 4] } }

theorem test_witness_CallersRetrieveByCode :
    (let s := sessionLine fun q => { q with phase := .access, codeDigits := [1, 2, 3], codeTimer := true, wrongCodes := 1 }
     let q := s.vm.session.get .line0
     Runs s ∧ (s.su.get .line0).mode = .voice ∧ q.phase = .access ∧ (s.lc.get .line0).state = .voice ∧
       (s.su.get .line0).heardKeypad = false ∧ (q.codeDigits ++ [4]).length = 4 ∧ s.vm.accessCode = some (q.codeDigits ++ [4]) ∧
       s.vm.accessCode ≠ some (q.codeDigits ++ [5]) ∧ q.wrongCodes + 1 < 3 ∧ q.codeTimer = true) ∧
    ((sessionLine fun q => { q with phase := .access, codeDigits := [1, 2] }).vm.session.get .line0).codeDigits.length + 1 < 4 ∧
    (let s := sessionLine fun q => { q with phase := .access, codeTimer := true, wrongCodes := 2 }
     3 ≤ (s.vm.session.get .line0).wrongCodes + 1 ∧ (s.lc.get .line0).entryRef = none) ∧
    (let s := sessionLine fun q => { q with phase := .menu, keyTimer := true }
     (s.vm.session.get .line0).phase = .menu ∧ (s.vm.session.get .line0).keyTimer = true ∧ (s.lc.get .line0).entryRef = none) ∧
    ((sessionLine id).vm.session.get .line0).phase ≠ .access ∧ ((sessionLine id).vm.session.get .line0).phase ≠ .menu ∧
    ({ ready.vm with signal := ⟨.refuseGap false, .none⟩ } : Vm).signal.get .line0 = .refuseGap false ∧
    (sessionLine id).vm.signal.get .line0 = .none := by decide

/-! ## Witnesses: Frame Channels and fax sessions -/

/-- Line 0's channel bound to the fax controller, its unit at FAX-SLOW with carrier. -/
def chan (f : Channel → Channel) : State :=
  { ready with
    su := ⟨{ ready.su.line0 with mode := .faxSlow, carrier := true }, ready.su.line1⟩
    fc := ⟨f { ready.fc.line0 with owner := .fx }, ready.fc.line1⟩ }

/-- R134: the bits of 0xFF and 0x7E between the flags, zeros inserted: after each five ones. -/
theorem test_stuff : stuff (octetsBits [0xFF, 0x7E]) =
    [true, true, true, true, true, false, true, true, true, false, true, true, true, true, true, false, true, false] := by decide

theorem test_witness_FramesCrossTheChannel :
    (let c := (chan fun c => { c with txState := .sending, txQueue := [⟨0xFF, .octets [1], .linkControl⟩] }).fc.get .line0
     c.txMode = .framed ∧ c.txQueue = ⟨0xFF, .octets [1], .linkControl⟩ :: [] ∧ c.txState = .sending) ∧
    (let c := (chan fun c => { c with txState := .sending, txQueue := [⟨0x03, .page 0 256, .pageFrame 0⟩] }).fc.get .line0
     c.txQueue = ⟨0x03, .page 0 256, .pageFrame 0⟩ :: [] ∧ c.txState = .sending) ∧
    (let c := (chan fun c => { c with txState := .draining, txQueue := [⟨0xFF, .octets [], .linkControl⟩] }).fc.get .line0
     c.txState = .draining ∧ c.nextTx = none) ∧
    ((chan id).fc.get .line0).txQueue = [] ∧
    (let c := (chan fun c => { c with txMode := .transparent, txState := .sending }).fc.get .line0
     c.txMode = .transparent ∧ c.txState = .sending) ∧
    (∀ st : RxState, ((chan fun c => { c with rxState := st }).fc.get .line0).rxState = st ∧
      ((chan fun c => { c with rxState := st }).fc.get .line0).rxMode = .framed ∧ Runs (chan fun c => { c with rxState := st })) ∧
    Delivers .line0 (chan id) ∧ ((chan id).fc.get .line0).rxAddress = none ∧
    (let c := (chan fun c => { c with rxState := .frame, rxAddress := some 0xFF }).fc.get .line0
     c.rxAddress = some 0xFF ∧ (List.replicate 297 (0 : Byte)).length + 3 ≤ c.limit) ∧
    ((chan fun c => { c with rxState := .discard, rxTooLong := true }).fc.get .line0).rxTooLong = true ∧
    (let c := (chan fun c => { c with filter := .exact, ownAddress := 0x01 }).fc.get .line0
     c.filter = .exact ∧ (0x03 : Byte) ≠ c.ownAddress ∧ (0x03 : Byte) ≠ 0xFF) ∧
    (ready.su.get .line0).carrier = false := by
  refine ⟨by decide, by decide, by decide, rfl, by decide, fun _ => ⟨rfl, rfl, rfl⟩,
    ⟨.inr (.inl rfl), rfl, rfl, rfl, by decide⟩, rfl, ⟨rfl, by rw [List.length_replicate]; decide⟩, rfl, by decide, rfl⟩

theorem test_witness_FaxSessionsObeyThePort :
    (∀ st k c, Takes hd c (lineAt st k)) ∧ lineOfNat 0 = some .line0 ∧
    (let s := lineAt .voice (.port .cp)
     (s.lc.get .line0).controller = .port hd.port ∧ s.store.freeEntry?.isSome = true ∧ s.store.freePage?.isSome = true ∧
       (s.fc.get .line0).owner = .none ∧ (s.lc.get .line0).state = .voice ∧ (s.vp.get (ctxOf .line0)).activity = .idle ∧
       s.vm.pendingRecord.get .line0 = none) ∧
    (let s := lineAt .ringing (.port .cp)
     (s.lc.get .line0).state = .ringing ∧ (s.lc.get .line0).window = .closed) ∧
    ((lineAt .idle (.port .cp)).lc.get .line0).state ≠ .voice ∧ ((lineAt .idle (.port .cp)).lc.get .line0).state ≠ .seized ∧
    (let s := { lineAt .voice (.port .cp) with
       store := { ready.store with dir := Vector.replicate 128 { DirEntry.free with state := .complete } } }
     Takes hd (.faxReceive 0) s ∧ ∀ k : Fin 128, s.store.dir[k].state ≠ .free) ∧
    ((lineAt .fax (.port .pp)).lc.get .line0).controller = .port (otherPort hd.port) ∧
    (let s := lineAt .fax .automatic
     (s.lc.get .line0).controller ≠ .port (otherPort hd.port) ∧ (s.lc.get .line0).state = .fax ∧
       (s.fc.get .line0).txMode = .framed ∧ (s.fc.get .line0).txQueue = [] ∧ (s.fc.get .line0).txState = .off) ∧
    (let a : FaxArgs := ⟨some 6, .absent, .absent, some 40, some 0, some 65, some 1024, .val none, some 499⟩
     faxBad a = false) ∧ (7 ≠ 0 ∧ 7 ≠ 5 ∧ 7 ≠ 10 ∧ 7 ≠ 20 ∧ 7 ≠ 40) :=
  ⟨fun _ _ _ => takes _ rfl rfl, rfl, by decide, by decide, by decide, by decide, ⟨takes _ rfl rfl, fun k => by simp⟩, rfl, by decide,
    by decide, by decide⟩

/-- Line 0's fax session and work as given; the channel bound, its unit at FAX-SLOW with carrier. -/
def faxing (x : FaxSession → FaxSession) (w : FaxWork → FaxWork) (c : Channel → Channel := id)
    (u : SignalUnit → SignalUnit := id) : State :=
  { chan c with
    lc := (lineAt .fax .automatic).lc
    su := ⟨u (chan c).su.line0, ready.su.line1⟩
    fx := ⟨x ready.fx.line0, ready.fx.line1⟩
    fw := ⟨w ready.fw.line0, ready.fw.line1⟩ }

/-- R160: the least octets of a line. -/
theorem test_minOctets : ceilDiv (9600 * 10) 8000 = 12 ∧ ceilDiv (7200 * 5) 8000 = 5 ∧ ceilDiv (14400 * 20) 8000 = 36 := by decide

theorem test_witness_FaxProcedureAdvances :
    (let s := faxing id (fun w => { w with step := .answerTone }) id fun u => { u with generation := some ⟨.answerTone, 3000, 0, 0⟩ }
     Runs s ∧ (s.fw.get .line0).step = .answerTone ∧ (s.su.get .line0).generation = some ⟨.answerTone, 3000, 0, 0⟩ ∧
       (s.fc.get .line0).txMode = .framed ∧ (s.fc.get .line0).txState = .off ∧ (s.fc.get .line0).txQueue = []) ∧
    (let x := (faxing (fun x => { x with timer := true, repeats := 2, lastFrame := some .checkOk }) id).fx.get .line0
     x.timer = true ∧ x.repeats < 3 ∧ x.lastFrame = some .checkOk) ∧
    (let x := (faxing (fun x => { x with timer := true, repeats := 3 }) id).fx.get .line0
     x.timer = true ∧ 3 ≤ x.repeats) ∧
    ((faxing id id).fx.get .line0).timer = false ∧ ((faxing id id).fw.get .line0).step ≠ .checkZeros ∧
    ((faxing id id).fw.get .line0).step ≠ .pageData ∧
    (let s := faxing (fun x => { x with role := .sender, choice := some ⟨5, .fine, false, 0⟩ }) fun w => { w with step := .checkZeros }
     (s.fx.get .line0).role = .sender ∧ (s.fw.get .line0).step = .checkZeros ∧
       (s.fx.get .line0).choice = some ⟨5, .fine, false, 0⟩) ∧
    (let s := faxing (fun x => { x with role := .receiver, choice := some ⟨0, .fine, true, 0⟩ })
       (fun w => { w with step := .checkBits 3592 3 }) fun c => { c with rxMode := .transparent, rxState := .frame }
     (s.fx.get .line0).role = .receiver ∧ (s.fw.get .line0).step = .checkBits 3592 3 ∧ (s.fc.get .line0).txState = .off ∧
       (s.fc.get .line0).txQueue = [] ∧ (s.fx.get .line0).choice = some ⟨0, .fine, true, 0⟩ ∧
       (s.fc.get .line0).rxMode = .transparent ∧ (s.fc.get .line0).rxState = .frame ∧
       (3592 < 3600 * (0 + 1) ∧ 3600 * (0 + 1) ≤ 3592 + 8) ∧ 3584 + 8 < 3600 * (0 + 1) ∧
       3 + ((octetBits 0).take 8).countP id ≤ 3600 / 1000 ∧ 3600 / 1000 < 3 + ((octetBits 1).take 8).countP id) ∧
    Delivers .line0 (faxing id id (fun c => { c with rxMode := .transparent, rxState := .frame })) ∧
    (let s := { faxing (fun x => { x with role := .sender, document := some 0, page := 1, choice := some ⟨3, .fine, false, 10⟩ })
         (fun w => { w with step := .pageData }) with
       store := { ready.store with dir := ready.store.dir.set 0 { DirEntry.free with pageList := [0] } } }
     (s.fx.get .line0).role = .sender ∧ (s.fw.get .line0).step = .pageData ∧ (s.fx.get .line0).document = some 0 ∧
       s.store.dir[(0 : Fin 128)].pageList.length ≤ (s.fx.get .line0).page ∧ (s.lc.get .line0).entryRef = none ∧
       (s.fc.get .line0).txState = .off ∧ (s.fc.get .line0).txQueue = [] ∧
       s.store.dir[(0 : Fin 128)].pageList[(s.fx.get .line0).page - 1]? = some 0) ∧
    (let s := faxing (fun x => { x with role := .receiver }) (fun w => { w with step := .pageData }) id fun u => { u with mode := .faxFast }
     (s.fx.get .line0).role = .receiver ∧ (s.fw.get .line0).step = .pageData ∧ (s.su.get .line0).mode = .faxFast ∧
       Delivers .line0 s) ∧
    (let s := faxing (fun x => { x with role := .sender }) id id fun u => { u with lossTimer := true }
     (s.fx.get .line0).role = .sender ∧ (s.su.get .line0).lossTimer = true ∧ (s.lc.get .line0).state = .fax ∧
       (s.lc.get .line0).entryRef = none) := by
  refine ⟨by decide, by decide, by decide, by decide, by decide, by decide, by decide, by decide,
    ⟨.inr (.inl rfl), rfl, rfl, rfl, by decide⟩, by decide, ⟨rfl, rfl, rfl, .inr (.inr rfl), rfl, rfl, rfl, by decide⟩, by decide⟩

/-! ## Witnesses: the link and the streams -/

/-- A link of the CP on line 0, in DATA: its record, its working state, the CP's streams and the line's channel as given. -/
def linked (c : LinkRec → LinkRec) (w : LinkWork → LinkWork := id) (st : Streams → Streams := id)
    (k : Channel → Channel := fun k => { k with txState := .idle }) : State :=
  { lineAt .data (.port .cp) with
    su := ⟨{ ready.su.line0 with mode := .data, carrier := true, plain := true }, ready.su.line1⟩
    fc := ⟨k { ready.fc.line0 with owner := .cl }, ready.fc.line1⟩
    cl := c { ready.cl with line := some .line0, window := 7, payload := 128 }
    cw := w ready.cw
    st := ⟨st ready.st.cp, ready.st.pp⟩ }

theorem linked_room {c : LinkRec → LinkRec} (h : (c { ready.cl with line := some .line0, window := 7, payload := 128 }).line = some .line0) :
    LinkRoom .line0 (linked c) := ⟨h, ⟨rfl, rfl, rfl⟩, rfl, .inl rfl, Nat.zero_lt_succ _⟩

theorem test_witness_LinkObeysTheComputer :
    lineOfNat 0 = some .line0 ∧ Takes hdp (.linkOpen 0 (some .caller)) ready ∧ hdp.port = .pp ∧
    (let s := lineAt .voice (.port .cp)
     hd.port = .cp ∧ (s.lc.get .line0).controller = .port .cp ∧ Takes hd (.linkOpen 0 (some .caller)) s ∧
       (s.lc.get .line0).state = .voice ∧ s.cl.state = .ended ∧ s.st.cp.inb.state = .unbound ∧ s.st.cp.outb.state = .unbound ∧
       (s.fc.get .line0).owner = .none ∧ (s.vp.get (ctxOf .line0)).activity = .idle ∧ s.vm.pendingRecord.get .line0 = none) ∧
    (let s := { lineAt .voice (.port .cp) with cl := { ready.cl with state := .opened, line := some .line1 } }
     s.cl.state ≠ .ended ∧ Takes hd (.linkOpen 0 (some .caller)) s) ∧
    (let s := lineAt .idle (.port .cp)
     (s.lc.get .line0).state ≠ .voice ∧ (s.lc.get .line0).state ≠ .seized ∧ Takes hd (.linkOpen 0 (some .answerer)) s) ∧
    (let s := lineAt .ringing (.port .cp)
     (s.lc.get .line0).state = .ringing ∧ (s.lc.get .line0).window = .closed ∧ Takes hd (.answer 0 (some .data)) s) ∧
    Takes hd .linkClose ready ∧ Takes hdp .linkClose ready ∧ ready.cl.state = .ended ∧
    (let s := linked fun c => { c with state := .heldByPeer }
     Takes hd .linkClose s ∧ s.cl.state = .heldByPeer ∧ LinkRoom .line0 s ∧ s.st.cp.inb.slots = []) ∧
    (let s := linked fun c => { c with state := .setup }
     s.cl.state = .setup ∧ s.cl.line = some .line0 ∧ (s.lc.get .line0).state = .data ∧ (s.lc.get .line0).entryRef = none ∧
       Takes hd .linkClose s) ∧
    Takes hd .linkStatus ready ∧
    (let a : LinkArgs := ⟨some 16, some 15, some 6, .val true, some 0, some 5001, some 33, some 499⟩
     Takes hd (.setLink a) ready ∧ a.plainFallback ≠ .bad ∧ ({ a with plainFallback := .bad } : LinkArgs).plainFallback = .bad) :=
  ⟨rfl, takes_pp _ rfl rfl, rfl, ⟨rfl, rfl, takes _ rfl rfl, rfl, rfl, rfl, rfl, rfl, rfl, rfl⟩, ⟨by decide, takes _ rfl rfl⟩,
    ⟨by decide, by decide, takes _ rfl rfl⟩, ⟨rfl, rfl, takes _ rfl rfl⟩, takes _ rfl rfl, takes_pp _ rfl rfl, rfl,
    ⟨takes _ rfl rfl, rfl, linked_room rfl, rfl⟩, ⟨rfl, rfl, rfl, rfl, takes _ rfl rfl⟩, takes _ rfl rfl, takes _ rfl rfl, by decide,
    rfl⟩

theorem test_witness_LinkTimersAndOctets :
    (let s := linked (fun c => { c with state := .setup }) fun w => { w with setup := .interval, callUps := 2 }
     Runs s ∧ s.cl.line = some .line0 ∧ s.cl.state = .setup ∧ s.cw.setup = .interval ∧ s.cw.callUps < 3 ∧ LinkRoom .line0 s ∧
       (s.lc.get .line0).entryRef = none ∧ s.clSet.plainFallback = true ∧ (s.lc.get .line0).state = .data) ∧
    ({ ready.cw with setup := .interval, callUps := 3 } : LinkWork).callUps = 3 ∧
    (let s := { linked (fun c => { c with state := .setup }) (fun w => { w with setup := .wait }) with
       clSet := { ready.clSet with plainFallback := false } }
     s.cw.setup = .wait ∧ s.clSet.plainFallback = false) ∧
    (let s := linked fun c => { c with state := .opened, timer := .running, retries := 5, outstanding := [⟨31, List.replicate 256 0⟩] }
     s.cl.timer = .running ∧ s.cl.state = .opened ∧ s.cl.retries < s.clSet.retryLimit ∧
       s.cl.outstanding = ⟨31, List.replicate 256 0⟩ :: [] ∧ (List.replicate 256 (0 : Byte)).length ≤ 256 ∧ LinkRoom .line0 s ∧
       s.cl.state ≠ .setup ∧ s.cl.state ≠ .plain) ∧
    (let s := linked fun c => { c with state := .opened, timer := .running, retries := 6 }
     s.cl.state ≠ .closing ∧ s.clSet.retryLimit ≤ s.cl.retries) ∧
    (let s := linked fun c => { c with state := .closing, timer := .running, closeCount := 2 }
     s.cl.state = .closing ∧ s.cl.closeCount < 3 ∧ LinkRoom .line0 s) ∧
    3 ≤ (linked fun c => { c with state := .closing, closeCount := 3 }).cl.closeCount ∧ (linked id).cl.timer ≠ .running ∧
    (linked fun c => { c with proposal := some (4, .running) }).cl.proposal = some (4, .running) ∧
    (linked fun c => { c with proposal := some (4, .suspended) }).cl.proposal = some (4, .suspended) ∧ (linked id).cl.proposal = none := by
  refine ⟨⟨rfl, rfl, rfl, rfl, by decide, ⟨rfl, ⟨rfl, rfl, rfl⟩, rfl, .inl rfl, by decide⟩, rfl, rfl, rfl⟩, rfl, by decide,
    ⟨rfl, rfl, by decide, rfl, Nat.le_of_eq List.length_replicate, linked_room rfl, by decide, by decide⟩,
    by decide, ⟨rfl, by decide, linked_room rfl⟩, by decide, by decide, by decide, by decide, by decide⟩

theorem test_witness_LinkOctets :
    (let s := linked (fun c => { c with state := .plain }) id fun t =>
       { t with inb := { t.inb with state := .active, binding := some .link, credit := 7, slots := [[1, 2]] } }
     s.cl.state = .plain ∧ (s.su.get .line0).plain = true ∧ (s.su.get .line0).mode = .data ∧ (s.su.get .line0).training = false ∧
       (s.su.get .line0).carrier = true ∧ s.st.cp.outb.buffer.length < 512 ∧ s.st.cp.inb.binding = some .link ∧
       s.st.cp.inb.state = .active ∧ s.st.cp.inb.slots = (1 :: [2]) :: []) ∧
    512 ≤ (linked id id fun t => { t with outb := { t.outb with buffer := List.replicate 512 0 } }).st.cp.outb.buffer.length ∧
    (let s := linked id id fun t => { t with inb := { t.inb with slots := [[1]] } }
     s.st.cp.inb.slots = (1 :: []) :: []) ∧
    (let s := linked (fun c => { c with state := .opened, payload := 256, v := 3, ahead := [⟨3, List.replicate 256 0⟩] })
     s.cl.state = .opened ∧ s.pc.cp.state = .ready ∧ s.cl.ahead = [⟨3, List.replicate 256 0⟩] ∧ 3 = s.cl.v ∧ s.cl.ownBusy = false ∧
       s.st.cp.outb.buffer.length + (List.replicate 256 (0 : Byte)).length + s.cl.payload ≤ 512) ∧
    (let s := linked (fun c => { c with state := .opened, ownBusy := true, payload := 256 })
     s.cl.ahead = [] ∧ s.cl.ownBusy = true ∧ s.cl.payload ≤ 256 ∧ s.st.cp.outb.buffer.length ≤ 256 ∧ LinkRoom .line0 s) ∧
    (linked id).cl.state = .ended := by
  refine ⟨by decide, ?_, rfl, ⟨rfl, rfl, rfl, rfl, rfl, ?_⟩, ⟨rfl, rfl, Nat.le_refl _, by decide, linked_room rfl⟩, rfl⟩
  · show 512 ≤ (List.replicate 512 (0 : Byte)).length
    exact Nat.le_of_eq List.length_replicate.symm
  · rw [List.length_replicate]; exact Nat.le_refl _

/-- `ready` with the CP's streams, its handles and directory entry 0 as given. -/
def streaming (st : Streams → Streams) (hs : List Handle := []) (e : DirEntry → DirEntry := id) : State :=
  { withEntry0 e hs with st := ⟨st ready.st.cp, ready.st.pp⟩ }

theorem test_witness_StreamsMoveBytes :
    (let a : WriteArgs := ⟨some .voice, some 4, some .q8, some .r7200, none, none⟩
     Takes hd (.write a) ready ∧ a.kind = some .voice ∧ a.mailbox = some (4 : Fin 5).val ∧ a.code = some .q8 ∧ a.rate = some .r7200 ∧
       a.station = none ∧ a.dma = none ∧ (ready.st.get hd.port).inb.state = .unbound ∧ ready.store.dir[(0 : Fin 128)].state = .free ∧
       (∀ j : Fin 128, j < 0 → ready.store.dir[j].state ≠ .free) ∧ ready.store.handle? (.port hd.port 0) = none ∧
       (∀ j : Fin 4, j < 0 → (ready.store.handle? (.port hd.port j)).isSome = true) ∧
       Takes hd (.write a) (streaming fun t => { t with inb := { t.inb with state := .active } })) ∧
    ((streaming fun t => { t with inb := { t.inb with state := .active } }).st.get hd.port).inb.state ≠ .unbound ∧
    (let a : ReadArgs := ⟨(0 : Fin 4).val, none, none⟩
     let s := streaming id [⟨.port .cp 0, 0, false, 0⟩] fun e => { e with state := .writing, kind := .faxIn }
     Takes hd (.read a) s ∧ a.start = none ∧ a.dma = none ∧ s.store.handle? (.port hd.port 0) = some ⟨.port .cp 0, 0, false, 0⟩ ∧
       (s.st.get hd.port).outb.state = .unbound) ∧
    (streaming id [⟨.port .cp 0, 0, true, 0⟩]).store.handle? (.port hd.port 0) = some ⟨.port .cp 0, 0, true, 0⟩ ∧
    (∀ d, Takes hd (.clearStream d) ready) ∧ (∀ d, Takes hd (.streamStatus d) ready) ∧
    (let s := { streaming fun t => { t with inb := { t.inb with state := .active, binding := some .link } } with
       cl := { ready.cl with state := .plain } }
     (s.st.get hd.port).inb.state = .active ∧ (s.st.get hd.port).inb.binding = some .link ∧ s.cl.state ≠ .ended ∧
       Takes hd (.clearStream .inbound) s) ∧
    (let s := streaming fun t => { t with outb := { t.outb with state := .halted } }
     (s.st.get hd.port).outb.state = .halted ∧ (s.st.get hd.port).outb.binding = none ∧ Takes hd (.clearStream .outbound) s) :=
  ⟨⟨takes _ rfl rfl, rfl, rfl, rfl, rfl, rfl, rfl, rfl, rfl, fun _ h => absurd h (Nat.not_lt_zero _), rfl,
    fun _ h => absurd h (Nat.not_lt_zero _), takes _ rfl rfl⟩, by decide, ⟨takes _ rfl rfl, rfl, rfl, rfl, rfl⟩, rfl,
    fun _ => takes _ rfl rfl, fun _ => takes _ rfl rfl, ⟨rfl, rfl, by decide, takes _ rfl rfl⟩, rfl, rfl, takes _ rfl rfl⟩

theorem test_witness_StreamPackets :
    (let s := streaming fun t => { t with inb := { t.inb with state := .active, binding := some .link, credit := 1 } }
     let i := (s.st.get .cp).inb
     Runs s ∧ (s.pc.get .cp).state = .ready ∧ (s.pc.get .cp).cmdQueue.length < 4 ∧ i.state = .active ∧ i.binding = some .link ∧
       i.endSeen = false ∧ 0 < i.credit) ∧
    (List.replicate 64 (0 : Byte) ≠ [] ∧ (List.replicate 64 (0 : Byte)).length ≤ 64) ∧
    ((streaming fun t => { t with inb := { t.inb with state := .active } }).st.get .cp).inb.credit = 0 ∧
    (let i := ((streaming fun t => { t with inb := { t.inb with state := .active, binding := some (.handle 3) } }).st.get .cp).inb
     i.state = .active ∧ i.binding = some (.handle 3) ∧ i.endSeen = false) ∧
    (ready.st.get .cp).inb.state ≠ .active ∧ (ready.st.get .cp).outb.state = .unbound ∧
    (let o := ((streaming fun t => { t with outb := { t.outb with state := .active, binding := some (.handle 0), buffer := [1],
                                                                  credit := 1 } }).st.get .cp).outb
     o.state = .active ∧ o.buffer ≠ [] ∧ o.binding ≠ some .link ∧ o.haltPending = false ∧ 1 ≤ o.credit) ∧
    ((streaming fun t => { t with outb := { t.outb with state := .waiting, buffer := [1] } }).st.get .cp).outb.credit = 0 ∧
    (let s := fun (st : EntryState) => streaming (fun t => { t with outb := { t.outb with state := .waiting, binding := some (.handle 0) } })
       [⟨.port .cp 0, 0, false, 0⟩] fun e => { e with state := st, kind := .faxIn }
     let o := ((s .writing).st.get .cp).outb
     o.binding = some (.handle 0) ∧ o.state = .waiting ∧
       (s .writing).store.handle? (.port .cp 0) = some ⟨.port .cp 0, 0, false, 0⟩ ∧ (s .writing).store.dir[(0 : Fin 128)].committed ≤ 0 ∧
       (s .writing).store.dir[(0 : Fin 128)].state = .writing ∧ (s .complete).store.dir[(0 : Fin 128)].state ≠ .writing) := by decide

/-! ## Worked examples and single steps -/

/-- R102's four examples. -/
theorem test_q8 :
    q8Encode 1100 (ditherOf .none 0 0) = 4 ∧ q8Decode 4 = 1152 ∧ q8Encode 1100 (ditherOf .alt 0 0) = 4 ∧
    q8Encode 1100 (ditherOf .alt 0 1) = 5 ∧ q8Decode 5 = 1408 ∧ q8Encode 32767 (ditherOf .none 0 0) = 127 ∧
    q8Decode 127 = 32640 := by decide

/-- R107's example: a seek to 5000 in a Q4 message of full blocks begins at sample 4032. -/
theorem test_seek : ({ DirEntry.free with
    kind := .voice, state := .complete, length := 6048, committed := 6048,
    blocks := [⟨0, 1008⟩, ⟨1, 1008⟩, ⟨2, 1008⟩, ⟨3, 1008⟩, ⟨4, 1008⟩, ⟨5, 1008⟩] } : DirEntry).seekTo 5000 = 4032 := by decide

/-- The state after a command that goes on. -/
def after (i : Instr) (s : State) : State :=
  match exec i s with
  | .next t => t
  | _ => s

/-- R8: a ring in IDLE begins a call; R9: at the fourth ring's end the line answers under AUTO. -/
theorem test_ring_begins : ((after (.ringBurstStart .line0) ready).lc.line0).state = .ringing ∧
    ((after (.ringBurstStart .line0) ready).lc.line0).ringCount = 1 := by decide

/-- R4: 1000 ms without voltage put an idle line in FAULT. -/
theorem test_fault :
    (after (.faultTimerExpiry .line0) (withLine fun r => { r with faultTimer := .running })).lc.line0.state = .fault := by
  decide

/-- R17: the controller's HOOK OFF seizes an idle line, and another's is refused. -/
theorem test_hookOff :
    (after (.hookOff hd 0) (lineAt .idle (.port .cp))).lc.line0.state = .seized ∧
    (after (.hookOff hd 0) ready).pc.cp.replyQueue = [⟨some ⟨1, .wrongState, .none⟩, none⟩] := by decide

/-- R41, Table 2-3: a measure of 33 trains at index 3 (12000). -/
theorem test_training :
    (after (.trainingComplete .line0 33) (withSu fun u => { u with mode := .data, training := true })).su.line0.rate = 3 := by decide

/-- R56: a queued call takes slot 0, its delay clamped to 86400 and its attempt limit to 1. -/
theorem test_queueCall :
    (after (.queueCall hd (callArgs .ringOnly none)) ready).queue[(0 : Fin 8)].earliest = 86400 ∧
    (after (.queueCall hd (callArgs .ringOnly none)) ready).queue[(0 : Fin 8)].attemptLimit = 1 := by decide

/-- R73: the reserve is clamped. -/
theorem test_setReserve : (after (.setReserve hd 300) ready).store.reserve = 255 := by decide

/-- R87: a refresh request of an arbiter at rest is served at once. -/
theorem test_refresh : (after .refreshRequest ready).arb.current = some .refresh := by decide

/-- R113: the access code. -/
theorem test_accessCode : (after (.setAccessCode hd (.digits 0 1 2 3)) ready).vm.accessCode = some [0, 1, 2, 3] := by decide

/-- R141: the flag takes a hunting receiver to SYNC. -/
theorem test_flag : (after (.flagFound .line0) (chan fun c => { c with rxState := .hunt })).fc.line0.rxState = .sync := by decide

/-- R172: the link settings are clamped. -/
theorem test_setLink :
    (after (.setLink hd ⟨some 16, some 15, some 6, .absent, some 0, some 199, some 33, some 5001⟩) ready).clSet =
      ⟨15, 16, 5, true, 1, 200, 32, 5000⟩ := by decide

/-- R192: a chunk takes a slot and one credit. -/
theorem test_streamDataIn :
    ((after (.streamDataIn .cp [7] false)
      (streaming fun t => { t with inb := { t.inb with state := .active, binding := some .link, credit := 8 } })).st.cp.inb).slots = [[7]] ∧
    ((after (.streamDataIn .cp [7] false)
      (streaming fun t => { t with inb := { t.inb with state := .active, binding := some .link, credit := 8 } })).st.cp.inb).credit = 7 := by
  decide

/-- R203: HELLO moves an ATTACHED port to READY. -/
theorem test_hello : (after (.hello hd) State.reset).pc.cp.state = .ready := by decide

/-- A step takes the front command and leaves the rest. -/
theorem test_step : step { ready with pending := [.refreshRequest, .clockTick] } = exec .refreshRequest { ready with pending := [.clockTick] } :=
  rfl


/-! ## Further witnesses: voice -/

/-- Entry 0 in a state, with a voice message of 2000 samples in two blocks. -/
def message (st : EntryState) : DirEntry :=
  { DirEntry.free with
    state := st, kind := .voice, mailbox := some 0, length := 2000, committed := 2000, blocks := [⟨7, 1008⟩, ⟨8, 992⟩],
    format := some ⟨.q4, .r8000, none⟩ }

/-- Line 0's context recording entry 0, for the CP; `f` says how far it is. -/
def portly (f : VoiceCtx → VoiceCtx) : State :=
  let s := operating (fun v => f { v with activity := .recording, entry := some 0, holder := some (.lineWrite .line0) }) .writing
    [⟨.lineWrite .line0, 0, true, 0⟩] .record
  { s with store := { s.store with fresh := 2000, reserve := 0 } }

theorem test_portly (f : VoiceCtx → VoiceCtx)
    (h : let v := f { ready.vp.l0 with activity := .recording, entry := some 0, holder := some (.lineWrite .line0) }
      v.activity = .recording ∧ v.entry = some 0 ∧ v.lateDrop = none) : Portly .l0 0 (portly f) := by
  refine ⟨⟨h.1, h.2.1, rfl, rfl, h.2.2, fun l h => ?_⟩, ?_⟩
  · cases l
    · exact ⟨rfl, rfl⟩
    · cases h
  · show 0 + 2 ≤ (Store.freeList { ready.store with fresh := 2000, reserve := 0 }).length
    decide

theorem test_witness_ResampledCoding :
    (let v := (withVoice fun v => { v with activity := .recording, entry := some 0, format := ⟨.q8, .r8000, none⟩, held := [40],
                                           hist := [100, -300], pos := 60 }).vp.get .l0
     v.format.rate = .r8000 ∧ v.hist = [100, -300] ∧ v.held = [40] ∧ 60 ≤ v.pos ∧ v.pos < 120) ∧
    (let v := (withVoice fun v => { v with activity := .recording, entry := some 0, format := ⟨.q4, .r7200, none⟩, held := [40],
                                           hist := [100, -300], pos := 40 }).vp.get .l0
     v.format.rate = .r7200 ∧ v.held = [40] ∧ v.pos < 60 ∧ 120 ≤ v.pos + 80 ∧ 39 + 80 < 120) ∧
    (let s := portly fun v => { v with frameCount := 192, silenceRun := 299, silenceTime := 6000, runStart := 9600 }
     let v := s.vp.get .l0
     Portly .l0 0 s ∧ 192 ≤ v.frameCount ∧ v.frameSum < 192 * v.settings.threshold ∧
       v.silenceTime ≤ min 65535 (v.silenceRun + 1) * 20) :=
  ⟨by decide, by decide, test_portly _ ⟨rfl, rfl, rfl⟩, by decide, by decide, by decide⟩

/-- Line 0's context playing entry 0, in a state with a length, through the line's handle at a position. -/
def playing (f : VoiceCtx → VoiceCtx) (pos : Nat) (st : EntryState := .writing) : State :=
  { withEntry0 (fun _ => message st) [⟨.linePlay .line0, 0, false, pos⟩] with
    vp := ⟨f { ready.vp.l0 with activity := .playing, holder := some (.linePlay .line0), entry := some 0 }, ready.vp.l1, ready.vp.loc⟩ }

/-- Line 0's sender with a page of 600 bytes in two blocks, in FAX-SLOW. -/
def sending (step : FaxStep) (w : FaxWork → FaxWork := id) (x : FaxSession → FaxSession := id) : State :=
  { faxing (fun y => x { y with role := .sender, document := some 0, page := 1, choice := some ⟨3, .fine, false, 10⟩,
                                offer := some ⟨5, true, true, 10, true, none⟩ }) (fun y => w { y with step := step }) with
    store := { ready.store with
      dir := ready.store.dir.set 0 { DirEntry.free with
        state := .complete, kind := .faxOut, length := 600, committed := 600, blocks := [⟨5, 512⟩, ⟨6, 88⟩], pageList := [0, 1] }
      pages := (ready.store.pages.set 0 ⟨true, 0, 1, .fine, 30, 0, 0, 0, .pending, 0, 600⟩).set 1
        ⟨true, 0, 2, .standard, 30, 0, 0, 0, .pending, 600, 300⟩ } }

theorem test_witness_BufferTurns :
    (let s := playing (fun v => { v with other := ⟨[], some 7, 1008, 8⟩ }) 0
     let v := s.vp.get .l0
     Runs s ∧ v.activity = .playing ∧ v.holder = some (.linePlay .line0) ∧
       s.store.handle? (.linePlay .line0) = some ⟨.linePlay .line0, 0, false, 0⟩ ∧ v.other.block.isSome ∧
       v.present.samples ≤ v.sampleIdx ∧ v.other.served = 8) ∧
    (∀ b : Bool, let v := (playing (fun v => { v with other := ⟨[], some 7, 1008, 7⟩, primed := b }) 0).vp.get .l0
     v.other.served ≠ 8 ∧ v.primed = b) ∧
    blockAt (playing id 0).store.dir[(0 : Fin 128)].blocks 0 0 0 = some (0, ⟨7, 1008⟩) ∧
    (ready.vp.get .l0).activity = .idle ∧
    (let v := (playing (fun v => { v with present := ⟨[], none, 1008, 8⟩, sampleIdx := 1007 }) 0).vp.get .l0
     v.activity = .playing ∧ v.sampleIdx < v.present.samples) ∧
    (let s := playing (fun v => { v with waiting := true }) 2000 .complete
     (s.vp.get .l0).waiting = true ∧ s.store.dir[(0 : Fin 128)].state ≠ .writing ∧ s.store.dir[(0 : Fin 128)].committed ≤ 2000) ∧
    (ready.fx.get .line0).role = .none ∧
    (let s := faxing (fun x => { x with role := .receiver }) id
     (s.fx.get .line0).role = .receiver ∧ (s.fw.get .line0).waitingLine = none) ∧
    (let s := sending .pageData
     (s.fx.get .line0).role = .sender ∧ (s.fw.get .line0).step = .pageData ∧ faxPending .line0 s = true) ∧
    faxPending .line0 (sending .pageData fun w => { w with served := 8 }) = false := by decide

theorem test_witness_PortRecordingsEnd :
    (let s := portly fun v => { v with maxLength := 10, lineCount := 96000 }
     Runs s ∧ Portly .l0 0 s ∧ (s.vp.get .l0).maxLength ≠ 0 ∧ (s.vp.get .l0).maxLength * 9600 ≤ (s.vp.get .l0).lineCount) ∧
    (let s := portly id
     Portly .l0 0 s ∧ (s.vp.get .l0).maxLength = 0 ∧ Takes hd (.stop (some .l0)) s ∧
       (∀ l, CtxId.l0 = ctxOf l → (s.lc.get l).controller = .port hd.port) ∧ s.vm.holder ≠ .context ∧
       (s.lc.get .line0).state = .voice ∧ (s.su.get .line0).mode = .voice ∧ (s.su.get .line0).heardKeypad = false ∧
       (s.dq.get .line0).record.phase = .idle) ∧
    (let u := { (portly id).su.line0 with onAt := some ⟨0, 9800⟩, cadence := ready.su.line0.cadence.set 0 ⟨.dial, 20, 0, 0, 0, 1⟩ }
     RaisesCallEnd .line0 u ⟨0, 9800⟩ (.continuousCadence .line0 0)) :=
  ⟨⟨rfl, test_portly _ ⟨rfl, rfl, rfl⟩, by decide, by decide⟩,
    ⟨test_portly _ ⟨rfl, rfl, rfl⟩, rfl, takes _ rfl rfl, (fun l h => by cases l; rfl; cases h), by decide, rfl, rfl, rfl, rfl⟩,
    ⟨.dial, .inl rfl, 0, rfl, .inr ⟨rfl, rfl, rfl, by decide, rfl, fun k h => absurd h (Nat.not_lt_zero _)⟩⟩⟩

/-- Line 0 in a state under the CP, entry 0 being a message. -/
def portLine (ls : LineState) (st : EntryState) : State :=
  { lineAt ls (.port .cp) with store := (withEntry0 fun _ => message st).store }

theorem test_witness_LineOperationsBegin :
    (∀ ls ∈ [LineState.voice, .seized], ∀ st ∈ [EntryState.writing, .complete], let s := portLine ls st
     let e := s.store.dir[(0 : Fin 128)]
     e.kind.isVoice = true ∧ e.state = st ∧ e.seekTo 1500 < e.length ∧ (s.vp.get .l0).activity = .idle ∧
       s.store.handle? (playHolder .l0) = none ∧ (s.lc.get .line0).controller = .port hd.port ∧
       s.vm.pendingRecord.get .line0 = none ∧ (s.lc.get .line0).state = ls ∧ (s.lc.get .line0).purpose = .none) ∧
    (∀ ls st, Takes hd (.play (some .l0) 0 1500) (portLine ls st)) ∧
    (let a : RecordArgs := ⟨some .l0, .absent, some 3, true⟩
     let s := lineAt .voice (.port .cp)
     Takes hd (.record a) s ∧ a.target = some (ctxOf .line0) ∧ a.beep = true ∧ a.kind = .absent ∧ a.mailbox.getD 0 = (3 : Fin 5).val ∧
       (s.vp.get (ctxOf .line0)).activity = .idle ∧ s.vm.pendingRecord.get .line0 = none ∧ s.store.reserve < s.store.free ∧
       s.store.dir[(0 : Fin 128)].state = .free) ∧
    (∀ b : Bool, let s := { lineAt .seized (.port .cp) with
       vm := { ready.vm with holder := .screen .line1, pendingRecord := if b then ⟨some 0, none⟩ else ⟨none, none⟩ } }
     Takes hd (.connectLocal 0 true) s ∧ (s.lc.get .line0).state = .seized ∧ (s.lc.get .line0).purpose = .none ∧
       s.vm.holder = .screen .line1 ∧ s.vm.pendingRecord.get .line0 = if b then some 0 else none) ∧
    (let s := { lineAt .voice (.port .cp) with vm := { ready.vm with holder := .context } }
     Takes hd (.connectLocal 0 true) s ∧ s.vm.holder = .context) :=
  ⟨by decide, fun _ _ => takes _ rfl rfl, ⟨takes _ rfl rfl, rfl, rfl, rfl, rfl, rfl, rfl, by decide, rfl⟩,
    fun b => ⟨takes _ rfl rfl, rfl, rfl, rfl, by cases b <;> rfl⟩, takes _ rfl rfl, rfl⟩

/-- A session's line with messages in slots 1, 2 (reviewed) and 4. -/
def retrieving (f : Session → Session) (hs : List Handle := []) : State :=
  { sessionLine f with
    store := { ready.store with
      fresh := 2000, reserve := 0, handles := hs
      dir := ((ready.store.dir.set 1 { message .complete with seqNo := 5 }).set 2
        { message .complete with seqNo := 3, reviewed := true }).set 4 { message .complete with seqNo := 4 } } }

theorem test_witness_MessagesAreRetrieved :
    (let s := retrieving fun q => { q with phase := .access, codeDigits := [1, 2, 3], wrongCodes := 2 }
     let q := s.vm.session.get .line0
     q.phase = .access ∧ (q.codeDigits ++ [5]).length = 4 ∧ s.vm.accessCode ≠ some (q.codeDigits ++ [5]) ∧ 3 ≤ q.wrongCodes + 1 ∧
       (s.su.get .line0).heardKeypad = false ∧ (s.lc.get .line0).entryRef = none) ∧
    (let s := retrieving fun q => { q with phase := .menu, keyTimer := true, playList := [⟨7, 1⟩, ⟨2, 3⟩, ⟨4, 4⟩, ⟨1, 5⟩] }
     let q := s.vm.session.get .line0
     let fits := fun i : Item => Listed i s.store ∧ s.store.dir[i.entry].reviewed = false
     Runs s ∧ (s.su.get .line0).mode = .voice ∧ q.phase = .menu ∧ q.keyTimer = true ∧ (s.lc.get .line0).state = .voice ∧
       s.vm.signal.get .line0 = .none ∧ (s.vp.get .l0).activity = .idle ∧ s.store.handle? (.linePlay .line0) = none ∧
       q.playList = [⟨7, 1⟩, ⟨2, 3⟩] ++ ⟨4, 4⟩ :: [⟨1, 5⟩] ∧ (∀ j ∈ [(⟨7, 1⟩ : Item), ⟨2, 3⟩], ¬ fits j) ∧ fits ⟨4, 4⟩ ∧
       Listed ⟨2, 3⟩ s.store ∧ ¬ Listed ⟨7, 1⟩ s.store ∧ s.store.dir[(0 : Fin 128)].state = .free ∧
       s.store.reserve < s.store.freeList.length) ∧
    (let s := { retrieving (fun q => { q with phase := .playing, cursor := some ⟨4, 4⟩, offered := [⟨7, 1⟩, ⟨1, 5⟩] })
         [⟨.linePlay .line0, 4, false, 9⟩] with
       vp := ⟨{ ready.vp.l0 with activity := .playing, entry := some 4, holder := some (.linePlay .line0) }, ready.vp.l1, ready.vp.loc⟩ }
     let q := s.vm.session.get .line0
     q.phase = .playing ∧ q.cursor = some ⟨4, 4⟩ ∧ (s.vp.get .l0).activity = .playing ∧
       s.store.handle? (.linePlay .line0) = some ⟨.linePlay .line0, 4, false, 9⟩ ∧ s.store.dir[(4 : Fin 128)].pageList = [] ∧
       q.offered = [⟨7, 1⟩] ++ ⟨1, 5⟩ :: [] ∧ (∀ k ∈ [(⟨7, 1⟩ : Item)], ¬ Listed k s.store) ∧ Listed ⟨1, 5⟩ s.store ∧
       Listed ⟨4, 4⟩ s.store ∧ s.store.dir[(4 : Fin 128)].guarded = false ∧ (∀ k : Fin 8, s.queue[k].state ≠ .waiting) ∧
       ¬ Listed ⟨4, 9⟩ s.store) := by
  simp only [Listed]; decide

/-! ## Further witnesses: channels, fax sessions and trainings -/

/-- Two records waiting to be sent. -/
def twoFrames : List FrameRec := [⟨0xFF, .octets [1], .linkControl⟩, ⟨0xFF, .octets [2], .linkControl⟩]

/-- A channel in a transmit state with records waiting. -/
def sendingIn (t : TxState) (q : List FrameRec := twoFrames) : Channel := (chan fun c => { c with txState := t, txQueue := q }).fc.get .line0

theorem test_witness_ChannelOperations :
    (∀ t ∈ [TxState.off, .idle, .sending, .held, .draining], (sendingIn t).txState = t ∧ (sendingIn t).txMode = .framed ∧
      (sendingIn t).nextTx = none ∧ (sendingIn t).counts.discarded ≤ 65535 ∧
      (sendingIn t).txQueue = ⟨0xFF, .octets [1], .linkControl⟩ :: [⟨0xFF, .octets [2], .linkControl⟩]) ∧
    (sendingIn .held []).txQueue = [] := by decide

/-- The received frames that are not GOOD: bits of two octets, of three and a bit, and of three with a wrong check. -/
theorem test_witness_BadFrames :
    (let s := chan fun c => { c with rxState := .frame, rxAddress := some 0xFF, rxLimit := 300 }
     let c := s.fc.get .line0
     Runs s ∧ Delivers .line0 s ∧ c.rxMode = .framed ∧ c.rxState = .frame ∧ c.rxAddress.isSome ∧ (s.su.get .line0).mode = .faxSlow ∧
       c.owner = .fx) ∧
    (let bits := destuff (stuff (octetsBits [0xFF, 1]))
     bits.length < 24 ∧ bits.length / 8 ≤ 300) ∧
    (let bits := destuff (stuff (octetsBits [0xFF, 1, 2] ++ [true]))
     24 ≤ bits.length ∧ bits.length % 8 ≠ 0) ∧
    (let bits := destuff (stuff (octetsBits [0xFF, 1, 2]))
     let os := bitsOctets bits
     24 ≤ bits.length ∧ bits.length % 8 = 0 ∧ checkOctets (os.take (os.length - 2)) ≠ os.drop (os.length - 2)) ∧
    2 < (destuff (stuff (octetsBits [0xFF, 1, 2]))).length / 8 := by
  refine ⟨⟨rfl, ⟨.inr (.inl rfl), rfl, rfl, rfl, by decide⟩, rfl, rfl, rfl, rfl, rfl⟩, by decide, by decide, by decide, by decide⟩

/-- Line 0's sender in a state, at FAX-SLOW. -/
def senderIn (st : FaxState) (w : FaxWork → FaxWork := id) (c : Choice := ⟨3, .fine, true, 10⟩) : State :=
  sending .slow w fun x => { x with state := some st, choice := some c }

/-- Line 0's receiver in a state, at FAX-SLOW, entry 0 being written. -/
def receiverIn (st : FaxState) (w : FaxWork → FaxWork := id) (x : FaxSession → FaxSession := id) : State :=
  { faxing (fun y => x { y with role := .receiver, state := some st, document := some 0, choice := some ⟨3, .fine, true, 10⟩ })
      (fun y => w { y with step := .slow, settings := { y.settings with corrected := true, maxRate := 3 } }) with
    store := { ready.store with
      dir := ready.store.dir.set 0 { DirEntry.free with
        state := .writing, kind := .faxIn, length := 512, blocks := [⟨5, 512⟩, ⟨6, 512⟩], pageList := [0] }
      pages := ready.store.pages.set 0 ⟨true, 0, 1, .fine, 30, 0, 0, 0, .pending, 0, 300⟩
      handles := [⟨.lineWrite .line0, 0, true, 0⟩] } }

theorem test_witness_FaxFramesAreTaken :
    (let s := { chan id with fc := ⟨{ (chan id).fc.line0 with rxQueue := [⟨some 0xFF, .control .checkOk, .good⟩] }, ready.fc.line1⟩ }
     (s.fc.get .line0).owner = .fx ∧ (s.fc.get .line0).reports = [] ∧
       (s.fc.get .line0).rxQueue = ⟨some 0xFF, .control .checkOk, .good⟩ :: []) ∧
    (let s := senderIn .sWaitOffer
     (s.fw.get .line0).step = .slow ∧ (s.fw.get .line0).after = .wait ∧ (s.fx.get .line0).state = some .sWaitOffer ∧
       (s.fx.get .line0).document = some 0 ∧ s.store.dir[(0 : Fin 128)].pageList[0]? = some 0 ∧
       s.store.pages[(0 : Fin 256)].resolution = .fine) ∧
    (∀ st ∈ [FaxState.sCheck, .sAwaitVerdict, .sEnd], let s := senderIn st
     let x := s.fx.get .line0
     x.state = some st ∧ x.choice = some ⟨3, .fine, true, 10⟩ ∧ x.offer = some ⟨5, true, true, 10, true, none⟩ ∧
       x.document = some 0 ∧ (s.fw.get .line0).resumeBlock = false ∧ s.store.dir[(0 : Fin 128)].pageList[x.page - 1]? = some 0 ∧
       s.store.dir[(0 : Fin 128)].pageList[x.page]? = some 1) ∧
    ((senderIn .sCheck id ⟨0, .fine, true, 10⟩).fx.get .line0).choice = some ⟨0, .fine, true, 10⟩ ∧ (2 : Fin 6).val + 1 = (3 : Fin 6).val ∧
    (∀ e ∈ [PageEnd.last, .change, .more], ((senderIn .sAwaitVerdict fun w => { w with pageEnd := e }).fw.get .line0).pageEnd = e) ∧
    (∀ st ∈ [FaxState.rOffer, .rVerdict, .rPage, .rBlock, .rEnd], let s := receiverIn st
     let t := (s.fw.get .line0).settings
     (s.fx.get .line0).state = some st ∧ (s.fx.get .line0).role = .receiver ∧ (s.lc.get .line0).state = .fax ∧
       (s.lc.get .line0).entryRef = none ∧ 3 ≤ t.maxRate ∧ t.fine = true ∧ t.corrected = true ∧ t.minLineTime ≤ 10 ∧
       ¬ (4 : Fin 6) ≤ t.maxRate) ∧
    (∀ b ∈ [0, 1, 9],
     let s := receiverIn .rVerdict (fun w => { w with trained := true, pageEntry := some 0 })
       (fun x => { x with received := 20, badLines := b, longestBad := b })
     let x := s.fx.get .line0
     (s.fw.get .line0).storeFull = false ∧ (s.fw.get .line0).trained = true ∧ (s.fw.get .line0).waitingLine = none ∧
       (s.fw.get .line0).pageEntry.isSome ∧ x.document.isSome ∧
       judgePage x.received x.badLines x.longestBad (s.fxSet.get .line0).tolerance (s.fxSet.get .line0).runLimit =
         if b = 9 then .bad else .good) ∧
    judgePage 1100 70 3 (ready.fxSet.get .line0).tolerance (ready.fxSet.get .line0).runLimit = .poor ∧
    (let s := receiverIn .rBlock (fun w => { w with blockOpen := true, written := [(0, 256), (1, 100)] }) fun x => { x with block := 2 }
     let w := s.fw.get .line0
     w.storeFull = false ∧ w.blockOpen = true ∧ w.lastBlock ≠ some 2 ∧ (s.fx.get .line0).block = 2 ∧
       w.written.find? (fun y => y.1 == 1) = some (1, 100) ∧ w.written.find? (fun y => y.1 == 2) = none) ∧
    (let s := receiverIn .rBlock fun w => { w with step := .blockData, blockOpen := true }
     (s.fx.get .line0).role = .receiver ∧ (s.fw.get .line0).step = .blockData ∧ (s.fw.get .line0).frameWrites.length < 4) ∧
    4 ≤ ((receiverIn .rBlock fun w => { w with step := .blockData, frameWrites := List.replicate 4 (0, []) }).fw.get
      .line0).frameWrites.length ∧
    (let s := receiverIn .rPage fun w => { w with step := .pageData, zeroRun := 11 }
     (s.fw.get .line0).step = .pageData ∧ 11 ≤ (s.fw.get .line0).zeroRun ∧ (s.fw.get .line0).started = false ∧
       s.store.dir[(0 : Fin 128)].pageList.length < 64 ∧ s.store.pages[(1 : Fin 256)].inUse = false) ∧
    (∀ k ∈ [4, 5],
     let w := (receiverIn .rPage fun w => { w with step := .pageData, zeroRun := 11, started := true, pendingEmpty := k }).fw.get .line0
     w.started = true ∧ w.lineBits = [] ∧ w.pendingEmpty = k) ∧
    (let s := receiverIn .rPage fun w => { w with
       step := .pageData, zeroRun := 11, started := true, lineBits := [true, false, true], unwritten := List.replicate 20 0 }
     let w := s.fw.get .line0
     w.started = true ∧ w.lineBits ≠ [] ∧ w.pendingEmpty = 0 ∧ w.storeFull = false ∧ w.waitingLine = none ∧
       (s.fx.get .line0).document = some 0 ∧ (512 + 3 + 511) / 512 ≤ s.store.dir[(0 : Fin 128)].blocks.length ∧
       (512 + 3 - 1) / 512 ≤ (512 - w.unwritten.length) / 512 + 1) := by
  refine ⟨by decide, by decide, by decide, by decide, by decide, by decide, by decide, by decide, by decide, by decide, by decide,
    by decide, by decide, by decide, by decide⟩

/-- Line 0's session at a step, its unit training at FAX-FAST. -/
def faxTraining (role : FaxRole) (step : FaxStep) (c : Fin 6 := 3) : State :=
  faxing (fun x => { x with role := role, choice := some ⟨c, .fine, false, 0⟩, document := some 0, page := 1 })
    (fun w => { w with step := step }) id fun u => { u with mode := .faxFast, training := true, carrier := false, ownCeiling := 3 }

theorem test_witness_FaxTrainings :
    (∀ role ∈ [FaxRole.sender, .receiver], ∀ c ∈ [(2 : Fin 6), 3],
      ∀ st ∈ [FaxStep.checkTraining, .pageTraining, .blockTraining, .pageData, .blockData, .checkZeros, .slow, .checkBits 1 1],
      let s := faxTraining role st c
      Runs s ∧ (s.su.get .line0).training = true ∧ (s.fx.get .line0).role = role ∧ (s.fw.get .line0).step = st ∧
        (s.fx.get .line0).choice = some ⟨c, .fine, false, 0⟩ ∧ (s.fw.get .line0).blockOpen = false ∧
        (s.fw.get .line0).pageEntry = none) ∧
    (let u := (faxTraining .sender .slow).su.get .line0
     meets u 33 3 ∧ (∀ j, meets u 33 j → j ≤ 3) ∧ ∀ i, ¬ meets u 7 i) ∧
    (∀ st ∈ [FaxStep.pageData, .checkBits 1 1, .slow, .blockData],
      let s := faxing (fun x => { x with role := .receiver }) (fun w => { w with step := st }) id
        fun u => { u with mode := .faxFast, watch := true }
      (s.su.get .line0).mode = .faxFast ∧ (s.su.get .line0).training = false ∧ (s.su.get .line0).carrier = true ∧
        (s.fx.get .line0).role = .receiver ∧ (s.fw.get .line0).step = st) := by
  refine ⟨by decide, ?_, by decide⟩
  simp only [meets]; decide

/-! ## Further witnesses: the link, the streams and answered calls -/

/-- `linked` with the Signal Unit changed as well. -/
def linkedOn (c : LinkRec → LinkRec) (u : SignalUnit → SignalUnit) (k : Channel → Channel := fun k => { k with txState := .idle }) : State :=
  let s := linked c id id k
  { s with su := s.su.set .line0 (u s.su.line0) }

theorem test_witness_LinkTrainings :
    (∀ r ∈ [LinkRole.caller, .answerer],
     let s := linkedOn (fun c => { c with state := .setup, role := r })
       (fun u => { u with training := true, carrier := false }) id
     Claims.linked .line0 s ∧ s.cl.state = .setup ∧ s.cl.role = r ∧ (s.su.get .line0).training = true ∧ (s.fc.get .line0).rxState = .off ∧
       (s.fc.get .line0).txState = .off ∧ (s.fc.get .line0).txQueue = [] ∧ s.cw.control = [] ∧ s.cw.again = [] ∧ s.cw.fresh = [] ∧
       s.cw.proposed = none ∧ meets (s.su.get .line0) 33 3 ∧ (trainedAt 33 3 (s.su.get .line0)).mode = .data ∧
       (s.lc.get .line0).state = .data ∧ (s.lc.get .line0).entryRef = none) ∧
    (let s := linkedOn (fun c => { c with state := .retraining, returnState := some .opened, outstanding := [⟨3, [1]⟩] })
       fun u => { u with mode := .retrain, returnMode := some .data, training := true, carrier := false }
     Claims.linked .line0 s ∧ s.cl.state = .retraining ∧ s.cl.returnState ≠ some .retraining ∧ s.cl.outstanding ≠ []) ∧
    (let s := linkedOn (fun c => { c with state := .plain }) fun u => { u with mode := .retrain, returnMode := some .data, training := true }
     Claims.linked .line0 s ∧ s.cl.state = .plain) ∧
    (let s := linkedOn (fun c => { c with state := .opened }) fun u => { u with carrier := false, lossTimer := true }
     Claims.linked .line0 s ∧ (s.su.get .line0).mode = .data ∧ (s.su.get .line0).training = false ∧ (s.su.get .line0).lossTimer = true) := by
  simp only [Claims.linked, meets]; decide

/-- Line 0's link OPEN, with room for a frame. -/
def opened (c : LinkRec → LinkRec := id) (st : Streams → Streams := id) : State := linked (fun x => c { x with state := .opened }) id st

theorem test_witness_LinkFramesAreTaken :
    (let s := linked id id id fun k => { k with rxQueue := [⟨some 0x01, .octets [0x10], .good⟩] }
     (s.fc.get .line0).owner = .cl ∧ (s.fc.get .line0).reports = [] ∧ (s.fc.get .line0).rxQueue = ⟨some 0x01, .octets [0x10], .good⟩ :: []) ∧
    readLink 128 (LinkFrame.close).octets = some .close ∧ readLink 128 [0xFF] = none ∧ LinkRoom .line0 (opened) ∧
    (let s := opened fun c => { c with rate := 2, history := List.replicate 31 false }
     s.cl.proposal = none ∧ s.clSet.stepDown ≤ ((false :: s.cl.history).take 32).countP (fun g => g == false) ∧
       (1 : Fin 6).val + 1 = s.cl.rate.val) ∧
    (let s := opened fun c => { c with rate := 2, goodRun := 255, ceiling := 5, quality := 63 }
     256 ≤ min 65535 (s.cl.goodRun + 1) ∧ s.cl.rate < s.cl.ceiling ∧ (3 : Fin 6).val = s.cl.rate.val + 1 ∧
       need 3 + 4 ≤ s.cl.quality.val ∧ ((true :: s.cl.history).take 32).countP (fun g => g == false) < s.clSet.stepDown) ∧
    (∀ r ∈ [LinkRole.caller, .answerer], let s := linked fun c => { c with state := .setup, role := r }
     s.cl.role = r ∧ s.cl.state = .setup ∧ s.cl.rate ≤ s.cl.ceiling ∧ s.cw.reached = false ∧ (s.lc.get .line0).entryRef = none ∧
       s.cw.ack = none) ∧
    (let s := opened fun c => { c with outstanding := [⟨30, [1]⟩, ⟨31, [2]⟩, ⟨0, [3]⟩] }
     (s.su.get .line0).carrier = true ∧ s.cl.outstanding.length = 3 ∧ (1 + 32 - 30 % 32) % 32 = 3 ∧
       s.cl.outstanding.filter (fun x => x.n == 31) = [⟨31, [2]⟩]) ∧
    (let s := opened (fun c => { c with v := 31, window := 7, payload := 128 }) fun t =>
       { t with outb := { t.outb with buffer := List.replicate 384 0 } }
     s.cl.outstanding = [] ∧ s.cl.v < 32 ∧ s.pc.cp.state = .ready ∧ s.cw.departed = false ∧ s.cl.ahead = [] ∧ s.cl.ownBusy = false ∧
       (31 + 32 - s.cl.v) % 32 = 0 ∧ (5 + 32 - s.cl.v) % 32 < s.cl.window ∧ s.cl.window ≤ (6 + 32 - s.cl.v) % 32) ∧
    (∀ st ∈ [LinkState.heldByPeer, .closing, .setup, .plain, .ended], (linked fun c => { c with state := st }).cl.state = st) ∧
    (let s := opened fun c => { c with proposal := some (1, .running), rate := 2, ceiling := 4 }
     s.cl.proposal = some (1, .running) ∧ (s.su.get .line0).mode = .data ∧ (s.su.get .line0).training = false ∧
       (1 : Fin 6) ≤ s.cl.ceiling ∧ s.cl.ceiling < (5 : Fin 6)) ∧
    (let s := opened (fun c => { c with ackDue := true }) fun t =>
       { t with inb := { t.inb with binding := some .link, state := .active, slots := [[1, 2]] } }
     let i := s.st.cp.inb
     s.cl.outstanding.length < s.cl.window ∧ s.cl.peerBusy = false ∧ s.cl.proposal = none ∧ i.binding = some .link ∧
       i.state = .active ∧ i.slots = [[1, 2]] ∧ 2 ≤ s.cl.payload ∧ s.cl.payload ≤ 256 ∧ s.cl.ackDue = true) := by
  refine ⟨by decide, by decide, by decide, linked_room rfl, by decide, by decide, by decide, by decide, ?_, by decide, by decide,
    by decide⟩
  exact ⟨rfl, by decide, rfl, rfl, rfl, rfl, by decide, by decide, by decide⟩

/-- The CP's inbound stream writing entry 0 through its handle 0. -/
def writing (i : InStream → InStream) (e : DirEntry → DirEntry) (free : List Nat := [7]) : State :=
  let s := streaming (fun t => { t with inb := i { t.inb with state := .active, binding := some (.handle 0), credit := 1 } })
    [⟨.port .cp 0, 0, true, 0⟩] fun d => e { d with state := .writing, kind := .voice, format := some ⟨.q8, .r9600, none⟩ }
  { s with store := { s.store with fresh := 2048, returned := free } }

theorem test_witness_WritesGoOn :
    (∀ f ∈ [[], [7]], let s := writing (fun i => { i with slots := [List.replicate 64 0] }) id f
     inHandle .cp s = some ⟨.port .cp 0, 0, true, 0⟩ ∧ inPending .cp s = true ∧
       s.store.dir[(0 : Fin 128)].blocks.length ≤ (s.st.get .cp).inb.written / 512 ∧ s.store.freeList = f) ∧
    (let s := writing id fun e => { e with blocks := [⟨7, 0⟩] }
     let e := s.store.dir[(0 : Fin 128)]
     e.kind.isVoice = true ∧ e.blocks.getLast? = some ⟨7, 0⟩ ∧ e.format = some ⟨.q8, .r9600, none⟩ ∧
       headerOk ⟨.q8, .r9600, none⟩ (memReadBytes (7 * 512) 8 s.store.dram) = false) ∧
    headerOk ⟨.q8, .r9600, none⟩ (headerBytes 0 0 77 0 ⟨.q8, .r9600, none⟩) = true ∧
    (∀ w ∈ [512, 100], let s := writing (fun i => { i with endSeen := true, written := w }) id
     (s.st.get .cp).inb.endSeen = true ∧ (s.st.get .cp).inb.slots = [] ∧ (s.st.get .cp).inb.written = w) ∧
    (let s := writing id fun e => { e with kind := .faxOut }
     let i := (s.st.get .cp).inb
     Runs s ∧ (s.pc.get .cp).state = .ready ∧ (s.pc.get .cp).cmdQueue.length < 4 ∧ i.state = .active ∧ i.binding = some (.handle 0) ∧
       i.endSeen = false ∧ 0 < i.credit ∧ s.store.handle? (.port .cp 0) = some ⟨.port .cp 0, 0, true, 0⟩ ∧
       s.store.dir[(0 : Fin 128)].kind = .faxOut ∧ (parseOctets 0 i.parsed [1, 2] i.parser s.store).isSome = true ∧
       parseOctets 0 i.parsed [2, 2, 0, 8, 0, 0] i.parser s.store = none) := by
  refine ⟨?_, by decide, by decide, by decide, ⟨rfl, rfl, by decide, rfl, rfl, rfl, by decide, rfl, rfl, rfl, rfl⟩⟩
  intro f hf
  simp only [List.mem_cons, List.not_mem_nil, or_false] at hf
  rcases hf with rfl | rfl <;> exact ⟨rfl, rfl, by decide, rfl⟩

/-- Line 0 about to decide at the end of its fourth ring. -/
def deciding (m : AnswerMode) (f : State → State := id) : State :=
  f (withLine fun r => { r with state := .ringing, controller := .automatic, ringCount := 4, snapshot := 4,
                                policy := { r.policy with answerMode := m } })

/-- Every slot of the store taken, entry 3 being the announcement. -/
def crowded (s : State) : State :=
  { s with store := { s.store with
      dir := (Vector.replicate 128 { DirEntry.free with state := .complete }).set 3 { message .complete with kind := .announce } } }

/-- Line 0's classified session at a phase, its unit hearing a continuous tone that is a fax calling tone by the table. -/
def classified (ph : Phase) (sg : Signal) (f : State → State := id) : State :=
  let s := sessionLine fun q => { q with phase := ph, classification := true }
  f { s with
    su := ⟨{ s.su.line0 with
      generation := some ⟨.beep, 500, 0, 0⟩, onAt := some ⟨0, 50⟩,
      cadence := s.su.line0.cadence.set 0 ⟨.faxCalling, 20, 0, 0, 0, 1⟩ }, s.su.line1⟩
    vm := { s.vm with signal := ⟨sg, .none⟩ } }

/-- `classified` while its context records entry 0. -/
def taking (f : VoiceCtx → VoiceCtx) : State :=
  classified .recording .none fun s => { s with
    vp := ⟨f { ready.vp.l0 with activity := .recording, entry := some 0, holder := some (.lineWrite .line0), frameCount := 192 },
      ready.vp.l1, ready.vp.loc⟩
    store := { s.store with
      fresh := 2000, reserve := 0, handles := [⟨.lineWrite .line0, 0, true, 0⟩]
      dir := s.store.dir.set 0 { DirEntry.free with state := .writing, kind := .voice } } }

/-- `sessionLine` playing entry 3 for its session. -/
def greeting (ph : Phase) (code : Option (List (Fin 10))) : State :=
  let s := sessionLine fun q => { q with phase := ph }
  { s with
    vp := ⟨{ ready.vp.l0 with activity := .playing, entry := some 3, holder := some (.linePlay .line0), ended := true, held := [1], pos := 60 },
      ready.vp.l1, ready.vp.loc⟩
    vm := { s.vm with accessCode := code }
    store := { s.store with
      handles := [⟨.linePlay .line0, 3, false, 0⟩], dir := s.store.dir.set 3 { message .complete with kind := .greeting } } }

theorem test_witness_CallsAreAnswered :
    (∀ m ∈ [AnswerMode.voice, .auto, .fax, .data], let s := deciding m
     let r := s.lc.get .line0
     Runs s ∧ r.state = .ringing ∧ r.controller = .automatic ∧ r.decided = false ∧ r.snapshot ≤ r.ringCount ∧ r.window = .closed ∧
       r.entryRef = none ∧ r.policy.answerMode = m ∧ (s.vm.session.get .line0).phase = .none ∧ (s.fc.get .line0).owner = .none) ∧
    canVoice { ready.store with fresh := 2000, reserve := 0 } ∧ canFax (deciding .fax).store ∧ canData (deciding .data) ∧
    (¬ canVoice (crowded ready).store ∧ FirstOf .announce 0 3 (crowded ready).store) := by
  refine ⟨by decide, ⟨⟨0, rfl⟩, by decide⟩, ⟨⟨0, rfl⟩, 0, rfl⟩, ⟨rfl, rfl, rfl, rfl⟩, ?_, ?_⟩
  · rintro ⟨⟨n, hn⟩, _⟩; revert n; decide
  · simp only [FirstOf]; decide

theorem test_witness_CallsAreClassified :
    (let s := classified .beep .sessionBeep
     Runs s ∧ (s.lc.get .line0).state = .voice ∧ (s.lc.get .line0).entryRef = none ∧ (s.vm.session.get .line0).classification = true ∧
       (s.su.get .line0).mode = .voice ∧ (s.fc.get .line0).owner = .none ∧ BeepPhase .line0 s ∧
       (s.dq.get .line0).record.phase = .idle ∧ (s.su.get .line0).heardData = false ∧
       (s.su.get .line0).generation = some ⟨.beep, 500, 0, 0⟩ ∧ s.vm.signal.get .line0 = .sessionBeep ∧
       s.store.dir[(0 : Fin 128)].state = .free) ∧
    RaisesHeard .line0 ((classified .beep .sessionBeep).su.get .line0) .faxCalling ⟨0, 50⟩ (.continuousCadence .line0 0) ∧
    (∀ r ∈ [0, 148, 149], SessionRecords .line0 0 (taking fun v => { v with silenceRun := r }) ∧
      192 ≤ ((taking fun v => { v with silenceRun := r }).vp.get .l0).frameCount) ∧
    (let v := (taking fun v => { v with frameSum := 192 * v.settings.threshold }).vp.get .l0
     192 * v.settings.threshold ≤ v.frameSum) ∧
    (ready.store.pages[(0 : Fin 256)].inUse = false ∧ min 65535 (148 + 1) * 20 < 3000 ∧ 3000 ≤ min 65535 (149 + 1) * 20) := by
  refine ⟨?_, ⟨0, rfl, .inr ⟨rfl, rfl, rfl, by decide, rfl, fun k h => absurd h (Nat.not_lt_zero _)⟩⟩, ?_, by decide, rfl, by decide,
    by decide⟩
  · simp only [BeepPhase]; decide
  · simp only [SessionRecords, SessionWrites]; decide

theorem test_witness_SessionsTakeTheirCourse :
    (∀ ph ∈ [Phase.greeting, .announce], ∀ code ∈ [none, some [(1 : Fin 10), 2, 3, 4]], let s := greeting ph code
     Runs s ∧ (s.lc.get .line0).state = .voice ∧ (s.su.get .line0).mode = .voice ∧ (s.su.get .line0).heardKeypad = false ∧
       (s.vm.session.get .line0).phase = ph ∧ (s.vp.get .l0).activity = .playing ∧ s.vm.signal.get .line0 = .none ∧
       s.vm.accessCode = code ∧ (s.vp.get .l0).ended = true ∧ 60 * (s.vp.get .l0).held.length ≤ (s.vp.get .l0).pos ∧
       (s.vm.report.get .l0).op ≠ .play ∧ (s.lc.get .line0).entryRef = none) ∧
    (let s := { taking (fun v => { v with silenceRun := 499, maxLength := 10, lineCount := 96000, silenceTime := 6000 }) with
       vm := { ready.vm with session := ⟨{ ready.vm.session.line0 with phase := .recording }, ready.vm.session.line1⟩ } }
     let v := s.vp.get .l0
     SessionRecords .line0 0 s ∧ (s.vm.session.get .line0).classification = false ∧ 192 ≤ v.frameCount ∧
       v.frameSum < 192 * v.settings.threshold ∧ v.silenceTime ≤ min 65535 (v.silenceRun + 1) * 20 ∧ v.maxLength ≠ 0 ∧
       v.maxLength * 9600 ≤ v.lineCount ∧ (s.su.get .line0).mode = .voice ∧ (s.su.get .line0).heardKeypad = false ∧
       (s.dq.get .line0).record.phase = .idle) ∧
    (let u := { (taking id).su.line0 with cadence := ready.su.line0.cadence.set 0 ⟨.dial, 20, 0, 0, 0, 1⟩ }
     RaisesCallEnd .line0 u ⟨0, 50⟩ (.continuousCadence .line0 0)) := by
  refine ⟨by decide, ?_, .dial, .inl rfl, 0, rfl, .inr ⟨rfl, rfl, rfl, by decide, rfl, fun k h => absurd h (Nat.not_lt_zero _)⟩⟩
  simp only [SessionRecords, SessionWrites]; decide

/-! ## Witnesses: due lines, queued calls, stores at reset and leaving ports -/

/-- Line 0 RINGING and due, its caller window as given, its policy's answer mode OFF. -/
def dueLine (w : Window) (octets : List Byte := []) : State :=
  { ringing 4 w (fun r => { r with due := true, callerOctets := octets, policy := { r.policy with answerMode := .off } }) with
    su := ⟨{ ready.su.line0 with mode := .callerRx }, ready.su.line1⟩ }

/-- A due line's window is PENDING or OPEN, and its closing takes the decision, which answers nothing or something (R9, R21). -/
theorem test_witness_DueLines :
    (∀ w ∈ [Window.pending, .opened], let r := (dueLine w).lc.get .line0
     r.state = .ringing ∧ r.window ≠ .closed ∧ r.controller = .automatic ∧ r.due = true) ∧
    (∀ w os, Declines .line0 (dueLine w os)) ∧
    (let s := dueLine .opened message555.dropLast
     Runs s ∧ (s.su.get .line0).mode = .callerRx ∧ messageComplete ((s.lc.get .line0).callerOctets ++ [0xA8]) = true) ∧
    (∃ t, TakesDecision .line0 (.ringBurstStart .line0) (dueLine .pending) t) ∧
    (∃ t, TakesDecision .line0 (.callerWindowTimeout .line0) (dueLine .opened) t) ∧
    (∃ t, TakesDecision .line0 (.callerOctet .line0 0xA8 false) (dueLine .opened message555.dropLast) t) ∧
    (∀ w ∈ [Window.pending, .opened, .closed], let r := (ringing 2 w fun r => { r with controller := .port .cp }).lc.get .line0
     r.state = .ringing ∧ r.controller = .port hd.port ∧ r.window = w) :=
  ⟨by decide, fun _ _ => trivial, by decide, ⟨_, rfl, rfl, rfl, .inr ⟨rfl, .inl ⟨by decide, rfl, rfl⟩⟩⟩,
    ⟨_, rfl, rfl, rfl, .inr ⟨rfl, .inr (.inl ⟨rfl, rfl, rfl⟩)⟩⟩,
    ⟨_, rfl, rfl, rfl, .inr ⟨rfl, .inr (.inr ⟨0xA8, false, rfl, rfl, by decide, rfl, rfl⟩)⟩⟩, by decide⟩

/-- Parameters of every code of Table 1-15, one twice and one not valid, and the two ways a parameter runs past the octets. -/
theorem test_witness_CallerParameters :
    let ps : List (Byte × List Byte) := [(0x10, [0x30]), (0x10, [0x30, 0x32, 0x33, 0x30, 0x32, 0x33, 0x35, 0x39]), (0x11, [0x35]),
      (0x11, [0x36]), (0x12, [0x41, 0x20]), (0x13, [0x50]), (0x14, [0x4F])]
    1 ≤ (paramOctets ps).length ∧ (paramOctets ps).length + 2 ≤ 80 ∧ fieldOf 0x10 timeParam ps = some ⟨2, 30, 23, 59⟩ ∧
      fieldOf 0x11 numberParam ps = some [5] ∧ fieldOf 0x13 withheldParam ps = some .onRequest ∧ (∃ code : Byte, [code] = [(0x11 : Byte)]) ∧
      ([0x35] : List Byte).length < (2 : Byte).toNat := by
  refine ⟨by decide, by decide, by decide, by decide, by decide, ⟨_, rfl⟩, by decide⟩

theorem test_witness_CadenceNamedTwice :
    let es : List CadenceArg := [⟨7, some .busy, 20, 20, 0, 0, 16⟩, ⟨7, some .dial, 30, 30, 0, 0, 1⟩]
    es.reverse.find? (fun y => y.entry == (7 : Fin 8).val) = some ⟨7, some .dial, 30, 30, 0, 0, 1⟩ := by decide

/-- A recording with two inputs held, at both ends of the second interval, and playbacks at the three rates (R98, R99, R101). -/
theorem test_witness_ResampledPlayback :
    (∀ p ∈ [60, 100, 119], let v := (withVoice fun v => { v with activity := .recording, entry := some 0, format := ⟨.q8, .r7200, none⟩,
                                                                 held := [40, 50], hist := [100, -300], pos := p }).vp.get .l0
     v.hist = [100, -300] ∧ v.held = [40, 50] ∧ 60 ≤ v.pos ∧ v.pos < 120) ∧ (60 + 80 < 180 ∧ 180 ≤ 100 + 80) ∧
    (∀ x ∈ [(Rate.r9600, 60), (.r8000, 50), (.r7200, 45)], ∀ h ∈ [[1, 2, 3], [1, (2 : Int)]],
     let v := (playing (fun v => { v with format := ⟨.q4, x.1, none⟩, held := h, pos := x.2, present := ⟨[], none, 9, 8⟩, sampleIdx := 8 }) 0).vp.get .l0
     v.activity = .playing ∧ v.ended = false ∧ v.waiting = false ∧ v.sampleIdx < v.present.samples ∧ v.held = h ∧ v.pos = x.2) := by
  decide

/-- Line 0's context recording entry 0 for the CP, its block full; `free` the blocks given back, `b` the buffer in transfer. -/
def fullBlock (b : Option Nat) (free : List Nat) (c : Bool := false) : State :=
  let s := portly fun v => { v with
    fill := 1008, other := ⟨[], b, 1008, 3⟩, format := ⟨.q4, .r8000, none⟩, settings := { v.settings with continueLate := c } }
  { s with store := { s.store with fresh := 2048, returned := free } }

theorem test_fullBlock (b : Option Nat) (free : List Nat) (c : Bool) : PortWrites .l0 0 (fullBlock b free c) :=
  ⟨rfl, rfl, rfl, rfl, rfl, fun l h => by cases l; exact ⟨rfl, rfl⟩; cases h⟩

/-- A full block that is LATE or refused, a playback that waits, and a recording whose line's loop breaks (R88, R103, R106, R108). -/
theorem test_witness_RecordingsStop :
    (∀ b ∈ [none, some 7], let v := (fullBlock b []).vp.get .l0
     PortWrites .l0 0 (fullBlock b []) ∧ blockSamples v.format.code ≤ v.fill ∧ v.other.block = b ∧ v.settings.continueLate = false ∧
       v.activity = .recording ∧ v.entry = some 0 ∧ v.lateDrop = none) ∧
    (fullBlock none []).store.freeList.length ≤ (fullBlock none []).store.reserve ∧
    (let v := (playing (fun v => { v with waiting := true, present := ⟨[], none, 9, 8⟩, sampleIdx := 9 }) 0).vp.get .l0
     v.activity = .playing ∧ v.waiting = true) ∧
    ((playing (fun v => { v with other := ⟨[], some 7, 1008, 8⟩ }) 0).vp.get .l0).waiting = false ∧
    (let s := portly id
     let t := { s with lc := ⟨{ s.lc.line0 with loopBreak := true }, s.lc.line1⟩ }
     (t.lc.get .line0).state = .voice ∧ (t.lc.get .line0).loopBreak = true) ∧
    (let s := { taking (fun v => { v with fill := 1008, other := ⟨[], some 7, 1008, 3⟩, format := ⟨.q4, .r8000, none⟩ }) with
       vm := { ready.vm with session := ⟨{ ready.vm.session.line0 with phase := .recording }, ready.vm.session.line1⟩ } }
     let v := s.vp.get (ctxOf .line0)
     SessionWrites .line0 0 s ∧ SessionRecords .line0 0 s ∧ blockSamples v.format.code ≤ v.fill ∧ v.other.block.isSome ∧
       v.settings.continueLate = false) := by
  refine ⟨fun b hb => ⟨test_fullBlock .., ?_⟩, by decide, by decide, by decide, by decide, ?_⟩
  · revert b; decide
  · simp only [SessionRecords, SessionWrites]; decide

/-- Line 0's sender at the end of a block (R162), and its receiver at repeats, at STORE-FULL and with no page entry (R159, R164, R165). -/
theorem test_witness_BlocksGoOn :
    (∀ r ∈ [3, 4], let s := sending .slow id fun x => { x with state := some .sBlock, round := r, choice := some ⟨3, .fine, true, 10⟩ }
     let x := s.fx.get .line0
     x.state = some .sBlock ∧ x.choice = some ⟨3, .fine, true, 10⟩ ∧ x.document = some 0 ∧ x.block = 0 ∧ x.round = r ∧ x.lowered = false ∧
       s.store.dir[(0 : Fin 128)].pageList[x.page - 1]? = some 0 ∧ s.store.dir[(0 : Fin 128)].pageList[x.page]? = some 1 ∧
       min 16384 (s.store.pages[(0 : Fin 256)].byteLength - (s.fw.get .line0).blockBase) ≠ 16384) ∧
    min 16384 (16384 - 0) = 16384 ∧
    ((sending .slow (fun w => { w with resumeBlock := true }) fun x => { x with state := some .sCheck, missing := [2, 0] }).fw.get
      .line0).resumeBlock = true ∧
    (∀ st ∈ [FaxState.rVerdict, .rBlock], let s := receiverIn st fun w => { w with storeFull := true }
     (s.fx.get .line0).state = some st ∧ (s.fw.get .line0).storeFull = true) ∧
    (let s := receiverIn .rVerdict (fun w => { w with trained := false }) fun x => { x with lastFrame := some .pageResend }
     (s.fw.get .line0).trained = false ∧ (s.fx.get .line0).lastFrame = some .pageResend ∧ (s.fw.get .line0).storeFull = false) ∧
    (∀ p : Bool, let s := receiverIn .rBlock (fun w => { w with lastBlock := some 4, pageDone := p, pageEntry := some 0 }) fun x => { x with block := 5 }
     let w := s.fw.get .line0
     w.lastBlock = some 4 ∧ w.blockOpen = false ∧ (s.fx.get .line0).block ≠ 4 ∧ w.lastBlock ≠ some 9 ∧ (s.fx.get .line0).block ≠ 9 ∧
       w.pageDone = p ∧ w.waitingLine = none ∧ w.pageEntry = some 0) ∧
    (let s := receiverIn .rVerdict (fun w => { w with trained := true }) fun x => { x with resent := true }
     let x := s.fx.get .line0
     (s.fw.get .line0).pageEntry = none ∧ x.resent = true ∧ x.document.isSome ∧
       judgePage x.received x.badLines x.longestBad (s.fxSet.get .line0).tolerance (s.fxSet.get .line0).runLimit = .bad) := by
  refine ⟨by decide, by decide, by decide, by decide, by decide, by decide, by decide⟩

/-- The CP's data call about to be answered, and a queued call of each purpose (R52, R53). -/
def awaitingOn (p : QueuePurpose) (d : DialPurpose) (m : Option (Fin 128) := none) : State :=
  let s := queuedOn .dialling p .awaiting .awaiting
  { s with
    queue := s.queue.set 0 { s.queue[(0 : Fin 8)] with message := m }
    su := ⟨{ ready.su.line0 with mode := .tones }, ready.su.line1⟩
    dq := ⟨{ s.dq.line0 with record := { s.dq.line0.record with purpose := d, ringbacks := 8 }, silence := true }, s.dq.line1⟩
    store := (withEntry0 (fun e => { e with state := .complete, kind := .voice })
      (match m with | some n => [⟨.entry 0, n, false, 0⟩] | none => [])).store }

theorem test_witness_DialsAreAnswered :
    (let s := { dialling .awaiting .awaiting .none [.comma] with
       dq := ⟨{ ready.dq.line0 with record := { ready.dq.line0.record with owner := some (.port .cp), phase := .awaiting, purpose := .data } },
         ready.dq.line1⟩ }
     Answers .line0 s (.answerTone .line0) .answeredTone ∧ (s.dq.get .line0).record.purpose = .data ∧ canData s ∧
       (s.fc.get .line0).owner = .none) ∧
    (∀ x ∈ [(QueuePurpose.faxSend, DialPurpose.fax, some (0 : Fin 128)), (.voiceDeliver, .voice, some 0), (.data, .data, none),
        (.ringOnly, .ringOnly, none)],
      let s := awaitingOn x.1 x.2.1 x.2.2
      Runs s ∧ (s.dq.get .line0).record.owner = some (.entry 0) ∧ (s.lc.get .line0).entryRef = some 0 ∧
        s.queue[(0 : Fin 8)].state = .dialling ∧ s.queue[(0 : Fin 8)].purpose = x.1 ∧ (s.dq.get .line0).record.purpose = x.2.1 ∧
        (s.fc.get .line0).owner = .none ∧ s.pins.ext.get .line0 = false) ∧
    canData (awaitingOn .data .data) ∧ ¬ canData { awaitingOn .data .data with cl := { ready.cl with state := .setup } } ∧
    (awaitingOn .ringOnly .ringOnly).store.handle? (.entry 0) = none ∧
    (∀ p d m, Answers .line0 (awaitingOn p d m) (.speech .line0) .answeredVoice ∧
      Answers .line0 (awaitingOn p d m) (.ringbackSilenceExpiry .line0) .answeredVoice ∧
      Fails .line0 (awaitingOn p d m) (.answerTimerExpiry .line0) .noAnswer ((awaitingOn p d m).dq.get .line0)) ∧
    (awaitingOn .faxSend .fax (some 0)).store.handle? (.entry 0) = some ⟨.entry 0, 0, false, 0⟩ ∧
    (awaitingOn .faxSend .fax (some 0)).store.dir[(0 : Fin 128)].state ≠ .deletePending := by
  refine ⟨⟨⟨rfl, rfl, .inl ⟨rfl, rfl, rfl, rfl⟩⟩, rfl, ⟨rfl, rfl, rfl, rfl⟩, rfl⟩, by decide, ⟨rfl, rfl, rfl, rfl⟩, ?_, rfl, ?_, rfl,
    by decide⟩
  · exact fun h => absurd h.2.2.2 (by decide)
  · exact fun p d m => ⟨⟨rfl, rfl, .inr (.inl ⟨rfl, rfl, rfl, rfl⟩)⟩, ⟨rfl, rfl, .inr (.inr ⟨rfl, rfl, rfl, (by decide : 1 ≤ 8)⟩)⟩,
      .inr ⟨rfl, rfl, .inl ⟨rfl, rfl, rfl⟩⟩⟩

/-- Two due calls, and calls at work: a fax session, a delivery and a link, each on a line whose loop breaks or whose carrier is lost (R57, R60). -/
theorem test_witness_CallsEnd :
    (let e := { QueueEntry.empty with state := .waiting, string := [.comma] }
     let s := { ready with queue := (ready.queue.set 2 { e with order := 1 }).set 5 { e with purpose := .data } }
     Runs s ∧ s.queue[(2 : Fin 8)].state = .waiting ∧ s.queue[(2 : Fin 8)].earliest ≤ s.queueTime ∧
       ∀ m : Fin 8, s.queue[m].string.length ≤ 40) ∧
    (let s := queuedOn .dialling .faxSend .dialling .dialling
     let t := { s with lc := ⟨{ s.lc.line0 with loopBreak := true }, s.lc.line1⟩ }
     (t.lc.get .line0).state = .dialling ∧ (t.lc.get .line0).loopBreak = true ∧ t.pins.ext.get .line0 = false) ∧
    (let s := queuedOn .inCall .faxSend .fax .idle
     let t := { s with
       lc := ⟨{ s.lc.line0 with loopBreak := true }, s.lc.line1⟩
       fx := ⟨{ s.fx.line0 with role := .sender }, s.fx.line1⟩
       fw := ⟨{ s.fw.line0 with after := .finish .done }, s.fw.line1⟩
       su := ⟨{ s.su.line0 with lossTimer := true }, s.su.line1⟩ }
     InCall 0 .line0 .faxSend t ∧ (t.fx.get .line0).role = .sender ∧ (t.lc.get .line0).state = .fax ∧
       (t.fw.get .line0).after = .finish .done ∧ (t.su.get .line0).lossTimer = true ∧ (t.lc.get .line0).loopBreak = true) ∧
    (let s := queuedOn .inCall .voiceDeliver .voice .idle
     let t := { s with
       vm := { s.vm with
         session := ⟨{ s.vm.session.line0 with phase := .deliver }, s.vm.session.line1⟩
         report := ⟨{ s.vm.report.l0 with op := .deliver }, s.vm.report.l1, s.vm.report.loc⟩ }
       vp := ⟨{ s.vp.l0 with activity := .playing, ended := true }, s.vp.l1, s.vp.loc⟩ }
     InCall 0 .line0 .voiceDeliver t ∧ (t.lc.get .line0).state = .voice ∧ (t.vm.session.get .line0).phase = .deliver ∧
       (t.vp.get (ctxOf .line0)).activity = .playing ∧ (t.vp.get (ctxOf .line0)).ended = true ∧
       60 * (t.vp.get (ctxOf .line0)).held.length ≤ (t.vp.get (ctxOf .line0)).pos ∧ (t.vm.report.get (ctxOf .line0)).op = .deliver ∧
       (t.lc.get .line0).controller = .automatic ∧ lineOfNat 0 = some .line0 ∧ Takes hd (.takeLine 0) t) ∧
    (∀ r : Bool, ∀ b : Bool, let s := queuedOn .inCall .data .data .idle
     let t := { s with
       cl := { s.cl with state := .setup, line := some .line0 }
       cw := { s.cw with reached := r, setup := .interval, callUps := 3 }
       clSet := { s.clSet with plainFallback := b }
       su := ⟨{ s.su.line0 with lossTimer := true }, s.su.line1⟩ }
     InCall 0 .line0 .data t ∧ (t.lc.get .line0).state = .data ∧ t.cl.line = some .line0 ∧ t.cl.state = .setup ∧ t.cw.reached = r ∧
       t.cw.setup = .interval ∧ 3 ≤ t.cw.callUps ∧ t.cl.role = .caller ∧ t.clSet.plainFallback = b ∧ (t.fx.get .line0).role = .none ∧
       (t.su.get .line0).lossTimer = true ∧ Takes hd .linkClose t) := by
  refine ⟨by decide, by decide, ⟨⟨rfl, rfl, rfl, rfl⟩, rfl, rfl, rfl, rfl, rfl⟩,
    ⟨⟨rfl, rfl, rfl, rfl⟩, rfl, rfl, rfl, rfl, by decide, rfl, rfl, rfl, takes _ rfl rfl⟩, fun r b => ?_⟩
  exact ⟨⟨rfl, rfl, rfl, rfl⟩, rfl, rfl, rfl, rfl, rfl, Nat.le_refl 3, rfl, rfl, rfl, rfl, takes _ rfl rfl⟩

/-- A store with entry 0 in WRITING, entry 1 COMPLETE of the same kind and mailbox, and pages 0 and 1 of entry 0. -/
def leftWriting (k : Kind) (n : Nat) (v : PageVerdict) : Store :=
  { ready.store with
    dir := (ready.store.dir.set 0 { DirEntry.free with
        state := .writing, kind := k, mailbox := some 2, committed := n, format := some ⟨.q4, .r8000, none⟩, pageList := [0, 1] }).set 1
      { DirEntry.free with state := .complete, kind := k, mailbox := some 2 }
    pages := (ready.store.pages.set 0 ⟨true, 0, 1, .standard, 30, 0, 0, 0, .good, 0, 600⟩).set 1
      ⟨true, 0, 2, .standard, 30, 0, 0, 0, v, 600, 300⟩ }

/-- What RESET makes of a greeting and of a fax in WRITING (R91): greetings on either side of 1 s, a FAX-IN whose last page has no committed byte or
is PENDING, and a FAX-OUT whose last section is complete or is not. -/
theorem test_witness_LeftWriting :
    (∀ n ∈ [7999, 8000], let a := leftWriting .greeting n .pending
     Rivals a.dir[(0 : Fin 128)] a.dir[(1 : Fin 128)] ∧ a.dir[(1 : Fin 128)].state = .complete ∧ a.dir[(0 : Fin 128)].state = .writing ∧
       a.dir[(0 : Fin 128)].committed = n ∧ oneSecond ⟨.q4, .r8000, none⟩ = 8000 ∧ a.dir[(0 : Fin 128)].kind ≠ .faxIn) ∧
    (∀ x ∈ [(Kind.faxIn, 600, PageVerdict.pending, some (0 : Fin 256)), (.faxIn, 601, .pending, some 1), (.faxOut, 900, .good, some 1),
        (.faxOut, 899, .good, some 0), (.faxOut, 900, .pending, some 0), (.faxOut, 599, .good, none)],
      let a := leftWriting x.1 x.2.1 x.2.2.1
      a.dir[(0 : Fin 128)].state = .writing ∧ (pagesKept a.dir[(0 : Fin 128)] a).getLast? = x.2.2.2 ∧
        (∀ k ∈ a.dir[(0 : Fin 128)].pageList, a.pages[k].owner = 0) ∧ a.dir[(0 : Fin 128)].pageList.Nodup) := by
  refine ⟨by simp only [Rivals]; decide, fun x hx => ?_⟩
  simp only [List.mem_cons, List.not_mem_nil, or_false] at hx
  rcases hx with rfl | rfl | rfl | rfl | rfl | rfl <;>
    exact ⟨rfl, rfl, List.forall_mem_cons.2 ⟨rfl, List.forall_mem_cons.2 ⟨rfl, fun _ h => nomatch h⟩⟩, by decide⟩

/-- What the CP leaves alone: the PP's line, and its handle and stream on an entry that no one writes (R92, R200). -/
theorem test_witness_LeavesAlone :
    let s := { lineAt .voice (.port .pp) with
      store := { ready.store with handles := [⟨.port .pp 0, 3, false, 9⟩, ⟨.port .cp 0, 4, true, 0⟩] }
      st := ⟨{ ready.st.cp with inb := { ready.st.cp.inb with state := .active, binding := some (.handle 0) } },
        { ready.st.pp with outb := { ready.st.pp.outb with state := .active, binding := some (.handle 0) } }⟩ }
    (s.lc.get .line0).controller = .port (otherPort .cp) ∧ s.cl.state = .ended ∧ s.store.handle? (playHolder .l0) = none ∧
      s.store.handle? (.port .pp 0) = some ⟨.port .pp 0, 3, false, 9⟩ ∧ Unwritten 3 .cp s ∧ s.store.handle? (.port .pp 1) = none := by
  refine ⟨rfl, rfl, rfl, rfl, ⟨fun c => by cases c <;> decide, fun l => by cases l <;> decide, fun k x h1 h2 => ?_⟩, rfl⟩
  obtain rfl : (0 : Fin 4) = k := by injection h1 with h; injection h
  cases h2
  decide

/-- WRITE of a FAX-OUT and of an announcement, READ with a start, the end of an entry, and streams to clear (R191, R193, R194, R196). -/
theorem test_witness_StreamsBoundToHandles :
    WriteNames ⟨some .faxOut, none, none, none, some [0x41, 0x42], some true⟩ .faxOut none none (some [0x41, 0x42]) ∧
    WriteNames ⟨some .announce, some 4, some .q8, some .r7200, none, none⟩ .announce (some 4) (some ⟨.q8, .r7200, none⟩) none ∧
    DmaNamed .cp (some true) true ∧ DmaNamed .pp none false ∧
    (let s := streaming id [⟨.port .cp 0, 0, false, 0⟩] fun e => { e with state := .complete, kind := .voice, length := 9, committed := 9 }
     Takes hd (.read ⟨(0 : Fin 4).val, some 9, none⟩) s ∧ s.store.handle? (.port hd.port 0) = some ⟨.port .cp 0, 0, false, 0⟩ ∧
       s.store.dir[(0 : Fin 128)].seekTo 9 = s.store.dir[(0 : Fin 128)].length ∧ (s.st.get hd.port).outb.state = .unbound) ∧
    (∀ e ∈ [EntryState.complete, .deletePending],
     let s := streaming (fun t => { t with outb := { t.outb with state := .active, binding := some (.handle 0) } }) [⟨.port .cp 0, 0, false, 9⟩]
       fun d => { d with state := e, completed := true, length := 9, committed := 9 }
     outHandle .cp s = some ⟨.port .cp 0, 0, false, 9⟩ ∧ (s.st.get .cp).outb.buffer = [] ∧ s.store.dir[(0 : Fin 128)].length ≤ 9 ∧
       s.store.dir[(0 : Fin 128)].state = e ∧ s.store.dir[(0 : Fin 128)].completed = true ∧ (s.st.get .cp).outb.binding = some (.handle 0)) ∧
    (let s := writing id fun e => { e with pageList := [] }
     Takes hd (.clearStream .inbound) s ∧ (s.st.get .cp).inb.state = .active ∧ (s.st.get .cp).inb.binding = some (.handle 0) ∧
       s.store.handle? (.port .cp 0) = some ⟨.port .cp 0, 0, true, 0⟩ ∧ s.store.openCount 0 = 1) ∧
    (∀ st ∈ [StreamState.active, .waiting, .halted, .finished],
      ((streaming fun t => { t with outb := { t.outb with state := st, binding := some (.handle 0) } }).st.get .cp).outb.state = st) := by
  refine ⟨⟨rfl, rfl, .inr ⟨rfl, rfl, rfl, rfl, rfl, rfl, fun bs h => by cases h; decide⟩⟩,
    ⟨rfl, rfl, .inl ⟨.inr (.inr rfl), rfl, 4, .q8, .r7200, rfl, rfl, rfl, rfl, rfl⟩⟩, .inr ⟨rfl, rfl⟩, .inl ⟨rfl, rfl⟩,
    ⟨takes _ rfl rfl, rfl, by decide, rfl⟩, by decide, ⟨takes _ rfl rfl, rfl, rfl, rfl, by decide⟩, by decide⟩

end Sys2Proof.Tests
end

section
/-! SUPPORT. The gain stage (R96): the gain's arithmetic, what a recording takes of a line's or the desk's sample, what a playback
gives before and after its gain, and with them `Obligations.GainScalesAndClamps`. -/

namespace Sys2Proof.Claims

open Sys2Proof.Machine

/-! ## The gain's arithmetic -/

theorem clampInt_eq_max_min {lo hi : Int} (h : lo ≤ hi) (x : Int) : clampInt lo hi x = max lo (min hi x) := by
  unfold clampInt
  split
  · omega
  · split <;> omega

theorem clamp16_eq_max_min (x : Int) : clamp16 x = max (-32768) (min 32767 x) := clampInt_eq_max_min (by decide) x

theorem gain_eq_max_min (g : Nat) (x : Int) : gain g x = max (-32768) (min 32767 (x * g / 16)) := clamp16_eq_max_min _

theorem sampleOf_bounds (x : BitVec 16) : -32768 ≤ sampleOf x ∧ sampleOf x ≤ 32767 :=
  ⟨BitVec.le_toInt x, Int.le_of_lt_add_one (BitVec.toInt_lt (x := x))⟩

/-- Gain 16 scales by one: what is within 16 bits passes. -/
theorem gain_sixteen {y : Int} (hlo : -32768 ≤ y) (hhi : y ≤ 32767) : gain 16 y = y := by
  have hscale : y * (16 : Nat) / 16 = y := Int.mul_ediv_cancel y (by decide)
  rw [gain_eq_max_min, hscale]
  omega

theorem gain_zero (y : Int) : gain 0 y = 0 := by
  have hscale : y * (0 : Nat) / 16 = 0 := by rw [Int.natCast_zero, Int.mul_zero, Int.zero_ediv]
  rw [gain_eq_max_min, hscale]
  omega

/-! ## What a recording takes -/

theorem overheard_vp (l : LineId) (x : Int) (s : State) : (overheard l x s).vp = s.vp := by
  unfold overheard
  split <;> rfl

/-- What the desk hears of a line's sample (R110, R120). -/
theorem sendSpeaker_if_heard (l : LineId) (x : Int) (s : State) :
    (if s.vm.holder = .screen l ∨ s.vm.holder = .bridge l then sendSpeaker (gain s.vp.loc.settings.playGain x) s else s) =
      overheard l x s := rfl

/-- A recorded line sample is the incoming one, whatever the codec is sent and the desk hears (R93, R110). -/
theorem lineSampleOf_of_recording {l : LineId} {s : State} (h : (s.vp.get (ctxOf l)).activity = .recording) (x : Int) :
    lineSampleOf l x s = recordSample (ctxOf l) x
      (sendLine l 0 (overheard l x (s.updSu l fun u => { u with sampleClock := u.sampleClock + 1 }))) := by
  have hrec : ((overheard l x (s.updSu l fun u => { u with sampleClock := u.sampleClock + 1 })).vp.get (ctxOf l)).activity =
      .recording := by
    rw [overheard_vp]
    exact h
  simp only [lineSampleOf, sendSpeaker_if_heard, hrec]

/-- LOCAL records the microphone's sample, its speaker silent (R93). -/
theorem localSampleOf_of_recording {s : State} (h : s.vp.loc.activity = .recording) (x : Int) :
    localSampleOf x s = recordSample .loc x (sendSpeaker 0 s) := by
  simp [localSampleOf, h]

/-! ## What a playback gives -/

/-- With both inputs held, the resampler's output lies between them at the position's fraction (R99). -/
theorem playOutput_of_held {c : CtxId} {s : State} {a b : Int}
    (ha : ((fillInputs c 8 s).vp.get c).held[((fillInputs c 8 s).vp.get c).pos / 60]? = some a)
    (hb : ((fillInputs c 8 s).vp.get c).held[((fillInputs c 8 s).vp.get c).pos / 60 + 1]? = some b) :
    (playOutput c s).2 = interpolate a b (((fillInputs c 8 s).vp.get c).pos % 60) := by
  simp only [playOutput, ha, hb]

/-! ## The gain stage -/

/-- Settles O15: the arithmetic by `gain_eq_max_min`, the two paths by the equations of a recorded sample and of a playback's output. -/
theorem gainScalesAndClamps : Obligations.GainScalesAndClamps := by
  refine ⟨gain_eq_max_min, fun x => ?passes, fun c x s => rfl, fun l x s hrec => ?line, fun x s hrec => ?desk,
    fun c s => ⟨rfl, fun a b ha hb => ?output⟩⟩
  case passes =>
    obtain ⟨hlo, hhi⟩ := sampleOf_bounds x
    exact ⟨gain_sixteen hlo hhi, gain_zero _⟩
  case line => exact ⟨_, lineSampleOf_of_recording hrec x, overheard_vp l x _⟩
  case desk => exact ⟨_, localSampleOf_of_recording hrec x, rfl⟩
  case output => exact playOutput_of_held ha hb

end Sys2Proof.Claims
end

section
/-! SUPPORT. The page verdict (R158): when a page is GOOD, POOR or BAD; that no operation of a receiver's document or of its answers
touches the verdict recorded last; what a page without a page entry leaves alone; and with them
`Obligations.PageVerdictByItsLimits`. -/

namespace Sys2Proof.Claims

open Sys2Proof.Machine

/-! ## The three verdicts -/

theorem judgePage_eq_good_iff (lines bad run t u : Nat) :
    judgePage lines bad run t u = .good ↔ 0 < lines ∧ bad * 100 ≤ lines * t ∧ run ≤ u := by
  unfold judgePage
  split
  case isTrue hgood => exact iff_of_true rfl hgood
  case isFalse hgood =>
    split
    · exact iff_of_false (by decide) hgood
    · exact iff_of_false (by decide) hgood

theorem judgePage_eq_poor_iff (lines bad run t u : Nat) :
    judgePage lines bad run t u = .poor ↔
      ¬ (bad * 100 ≤ lines * t ∧ run ≤ u) ∧ 0 < lines ∧ bad * 100 ≤ 2 * lines * t ∧ run ≤ 2 * u := by
  unfold judgePage
  split
  case isTrue hgood => exact iff_of_false (by decide) fun ⟨hover, _⟩ => hover hgood.2
  case isFalse hgood =>
    split
    case isTrue hpoor => exact iff_of_true rfl ⟨fun hwithin => hgood ⟨hpoor.1, hwithin⟩, hpoor⟩
    case isFalse hpoor => exact iff_of_false (by decide) fun ⟨_, hwithin⟩ => hpoor hwithin

/-- A page within its limits is within twice its limits, so BAD is what lies beyond the doubled ones. -/
theorem judgePage_eq_bad_iff (lines bad run t u : Nat) :
    judgePage lines bad run t u = .bad ↔ lines = 0 ∨ 2 * lines * t < bad * 100 ∨ 2 * u < run := by
  have hdouble : 2 * lines * t = 2 * (lines * t) := Nat.mul_assoc 2 lines t
  unfold judgePage
  split
  case isTrue hgood => exact iff_of_false (by decide) (by omega)
  case isFalse hgood =>
    split
    case isTrue hpoor => exact iff_of_false (by decide) (by omega)
    case isFalse hpoor => exact iff_of_true rfl (by omega)

theorem judgePage_ne_pending (lines bad run t u : Nat) : judgePage lines bad run t u ≠ .pending := by
  unfold judgePage
  split
  · decide
  · split <;> decide

/-! ## What leaves the fax work records alone -/

@[simp] theorem faxNotice_fw (l : LineId) (w : Word) (s : State) : (faxNotice l w s).fw = s.fw := rfl

@[simp] theorem faxNotice_fx (l : LineId) (w : Word) (s : State) : (faxNotice l w s).fx = s.fx := rfl

@[simp] theorem onStore_fw (f : Store → Store) (s : State) : (onStore f s).fw = s.fw := by
  unfold onStore
  dsimp only
  split <;> rfl

theorem forEach_fw {α : Type} {f : α → State → State} (h : ∀ a s, (f a s).fw = s.fw) (as : List α) (s : State) :
    (forEach f as s).fw = s.fw := by
  induction as generalizing s with
  | nil => rfl
  | cons a as ih => exact (ih (f a s)).trans (h a s)

theorem cutStream_fw (n : Fin 128) (e : DirEntry) (old : Store) (p : PortId) (s : State) : (cutStream n e old p s).fw = s.fw := by
  unfold cutStream
  split
  · split
    · split <;> rfl
    · rfl
  · rfl

theorem cutPlayback_fw (c : CtxId) (s : State) : (cutPlayback c s).fw = s.fw := by
  unfold cutPlayback
  split <;> rfl

@[simp] theorem cutEntry_fw (n : Fin 128) (len : Nat) (s : State) : (cutEntry n len s).fw = s.fw := by
  unfold cutEntry
  rw [forEach_fw cutPlayback_fw, forEach_fw (cutStream_fw n _ _), onStore_fw]

@[simp] theorem setFaxState_fw (l : LineId) (st : FaxState) (s : State) : (setFaxState l st s).fw = s.fw := by
  unfold setFaxState
  split <;> rfl

@[simp] theorem backToSlow_fw (l : LineId) (s : State) : (backToSlow l s).fw = s.fw := rfl

@[simp] theorem setResponse_fw (l : LineId) (run : Bool) (s : State) : (setResponse l run s).fw = s.fw := rfl

/-! ## The verdict recorded last -/

@[simp] theorem commitLines_lastVerdict (l : LineId) (es : List Nat) (s : State) :
    ((commitLines l es s).fw.get l).lastVerdict = (s.fw.get l).lastVerdict := by
  induction es generalizing s with
  | nil => simp [commitLines]
  | cons e es ih =>
    unfold commitLines
    split
    · dsimp only
      split
      · rw [ih]
        split <;> simp
      · simp
    · rfl

@[simp] theorem flushFax_lastVerdict (l : LineId) (s : State) :
    ((flushFax l s).fw.get l).lastVerdict = (s.fw.get l).lastVerdict := by
  unfold flushFax
  split
  · rfl
  · simp

@[simp] theorem forgetPage_lastVerdict (l : LineId) (s : State) :
    ((forgetPage l s).fw.get l).lastVerdict = (s.fw.get l).lastVerdict := by
  unfold forgetPage
  dsimp only
  split <;> simp

@[simp] theorem dropPage_lastVerdict (l : LineId) (s : State) :
    ((dropPage l s).fw.get l).lastVerdict = (s.fw.get l).lastVerdict := by
  unfold dropPage
  split <;> simp

@[simp] theorem faxStoreFull_lastVerdict (l : LineId) (s : State) :
    ((faxStoreFull l s).fw.get l).lastVerdict = (s.fw.get l).lastVerdict := by
  unfold faxStoreFull
  dsimp only
  split <;> simp

@[simp] theorem takeLine_lastVerdict (l : LineId) (n : Fin 128) (line : List Byte) (s : State) :
    ((takeLine l n line s).fw.get l).lastVerdict = (s.fw.get l).lastVerdict := by
  unfold takeLine
  dsimp only
  split <;> simp

@[simp] theorem takeWaiting_lastVerdict (l : LineId) (s : State) :
    ((takeWaiting l s).fw.get l).lastVerdict = (s.fw.get l).lastVerdict := by
  unfold takeWaiting
  split
  · split <;> simp
  · rfl

@[simp] theorem keepPage_lastVerdict (l : LineId) (v : PageVerdict) (s : State) :
    ((keepPage l v s).fw.get l).lastVerdict = (s.fw.get l).lastVerdict := by
  unfold keepPage
  dsimp only
  split
  · simp
  · split <;> simp

@[simp] theorem offerControl_lastVerdict (l : LineId) (f : ControlFrame) (s : State) :
    ((offerControl l f s).fw.get l).lastVerdict = (s.fw.get l).lastVerdict := by
  unfold offerControl
  dsimp only
  split <;> simp [enableTx]

@[simp] theorem faxSend_lastVerdict (l : LineId) (f : ControlFrame) (after : AfterSent) (s : State) :
    ((faxSend l f after s).fw.get l).lastVerdict = (s.fw.get l).lastVerdict := by
  simp [faxSend]

/-- An answer is one control frame, sent where the receiver stays or after it has changed its state. -/
theorem answerPage_cases (l : LineId) (v : PageVerdict) (e : PageEnd) (s : State) :
    ∃ f after, answerPage l v e s = faxSend l f after s ∨ ∃ st, answerPage l v e s = faxSend l f after (setFaxState l st s) := by
  unfold answerPage
  dsimp only
  split
  · exact ⟨_, _, .inr ⟨_, rfl⟩⟩
  · split
    · exact ⟨_, _, .inr ⟨_, rfl⟩⟩
    · exact ⟨_, _, .inl rfl⟩

theorem answerPage_lastVerdict (l : LineId) (v : PageVerdict) (e : PageEnd) (s : State) :
    ((answerPage l v e s).fw.get l).lastVerdict = (s.fw.get l).lastVerdict := by
  obtain ⟨f, after, h | ⟨st, h⟩⟩ := answerPage_cases l v e s
  · rw [h, faxSend_lastVerdict]
  · rw [h, faxSend_lastVerdict, setFaxState_fw]

theorem answerKept_lastVerdict {l : LineId} {answer : State → State}
    (h : ∀ s, ((answer s).fw.get l).lastVerdict = (s.fw.get l).lastVerdict) (s : State) :
    ((answerKept l answer s).fw.get l).lastVerdict = (s.fw.get l).lastVerdict := by
  unfold answerKept
  split
  · exact faxSend_lastVerdict l _ _ s
  · exact h s

/-! ## What an answer leaves alone -/

theorem offerControl_store (l : LineId) (f : ControlFrame) (s : State) : (offerControl l f s).store = s.store := by
  unfold offerControl
  dsimp only
  split <;> rfl

theorem offerControl_fx (l : LineId) (f : ControlFrame) (s : State) : (offerControl l f s).fx = s.fx := by
  unfold offerControl
  dsimp only
  split <;> rfl

@[simp] theorem faxSend_store (l : LineId) (f : ControlFrame) (after : AfterSent) (s : State) :
    (faxSend l f after s).store = s.store := offerControl_store l f _

@[simp] theorem faxSend_kept (l : LineId) (f : ControlFrame) (after : AfterSent) (s : State) :
    ((faxSend l f after s).fx.get l).kept = (s.fx.get l).kept := by
  simp [faxSend, offerControl_fx]

@[simp] theorem setFaxState_store (l : LineId) (st : FaxState) (s : State) : (setFaxState l st s).store = s.store := by
  unfold setFaxState
  split <;> rfl

@[simp] theorem setFaxState_kept (l : LineId) (st : FaxState) (s : State) :
    ((setFaxState l st s).fx.get l).kept = (s.fx.get l).kept := by
  unfold setFaxState
  split <;> simp

theorem answerPage_store (l : LineId) (v : PageVerdict) (e : PageEnd) (s : State) : (answerPage l v e s).store = s.store := by
  obtain ⟨f, after, h | ⟨st, h⟩⟩ := answerPage_cases l v e s
  · rw [h, faxSend_store]
  · rw [h, faxSend_store, setFaxState_store]

theorem answerPage_kept (l : LineId) (v : PageVerdict) (e : PageEnd) (s : State) :
    ((answerPage l v e s).fx.get l).kept = (s.fx.get l).kept := by
  obtain ⟨f, after, h | ⟨st, h⟩⟩ := answerPage_cases l v e s
  · rw [h, faxSend_kept]
  · rw [h, faxSend_kept, setFaxState_kept]

theorem answerKept_store {l : LineId} {answer : State → State} (h : ∀ s, (answer s).store = s.store) (s : State) :
    (answerKept l answer s).store = s.store := by
  unfold answerKept
  split
  · exact faxSend_store l _ _ s
  · exact h s

theorem answerKept_kept {l : LineId} {answer : State → State} (h : ∀ s, ((answer s).fx.get l).kept = (s.fx.get l).kept) (s : State) :
    ((answerKept l answer s).fx.get l).kept = (s.fx.get l).kept := by
  unfold answerKept
  split
  · exact faxSend_kept l _ _ s
  · exact h s

/-! ## A page without a page entry -/

/-- With no page entry to release, forgetting a page empties the client's buffers and nothing else. -/
theorem forgetPage_of_no_entry {l : LineId} {s : State} (h : (s.fw.get l).pageEntry = none) :
    forgetPage l s = s.updFw l fun w =>
      { w with unwritten := [], lineEnds := [], waitingLine := none, frameWrites := [], blockOpen := false, burst := false } := by
  simp [forgetPage, h]

theorem dropPage_of_no_entry {l : LineId} {s : State} (h : (s.fw.get l).pageEntry = none) : dropPage l s = forgetPage l s := by
  simp [dropPage, h]

theorem keepPage_of_no_entry {l : LineId} {v : PageVerdict} {s : State} (h : (s.fw.get l).pageEntry = none) :
    keepPage l v s = s.updFx l fun x => { x with resent := false } := by
  simp [keepPage, h]

theorem forgetPage_pageEntry {l : LineId} {s : State} (h : (s.fx.get l).document = none → (s.fw.get l).pageEntry = none) :
    ((forgetPage l s).fw.get l).pageEntry = none := by
  cases hentry : (s.fw.get l).pageEntry with
  | none => simp [forgetPage_of_no_entry hentry, hentry]
  | some k =>
    cases hdoc : (s.fx.get l).document with
    | none => exact absurd (h hdoc) (by simp [hentry])
    | some n => simp [forgetPage, hdoc, hentry]

/-- A page of no line is forgotten where its data ends (R158). -/
theorem endPageData_pageEntry {l : LineId} {s : State} (h : (s.fx.get l).document = none → (s.fw.get l).pageEntry = none)
    (hlines : (s.fx.get l).received = 0) : ((endPageData l s).fw.get l).pageEntry = none := by
  simp [endPageData, hlines, forgetPage_pageEntry h]

/-! ## PAGE-DONE -/

/-- The verdict R158 gives the page in progress of a line. -/
def pageVerdict (l : LineId) (s : State) : PageVerdict :=
  judgePage (s.fx.get l).received (s.fx.get l).badLines (s.fx.get l).longestBad (s.fxSet.get l).tolerance (s.fxSet.get l).runLimit

/-- The state with the page in progress judged and nothing answered yet. -/
def judged (l : LineId) (s : State) : State :=
  s.updFw l fun w => { w with trained := false, lastVerdict := some (pageVerdict l s) }

theorem judged_lastVerdict (l : LineId) (s : State) : ((judged l s).fw.get l).lastVerdict = some (pageVerdict l s) := by
  simp [judged]

theorem judged_pageEntry (l : LineId) (s : State) : ((judged l s).fw.get l).pageEntry = (s.fw.get l).pageEntry := by
  simp [judged]

/-- A PAGE-DONE that judges drops a BAD page and asks for it again once, and keeps and answers every other page (R159). -/
theorem takePageDone_of_trained {l : LineId} {s : State} (e : PageEnd) (hfull : (s.fw.get l).storeFull = false)
    (htrained : (s.fw.get l).trained = true) :
    takePageDone l e s =
      if pageVerdict l s = .bad ∧ (s.fx.get l).resent = false then
        faxSend l .pageResend .wait ((dropPage l (judged l s)).updFx l fun x => { x with resent := true })
      else answerKept l (answerPage l (pageVerdict l s) e) (keepPage l (pageVerdict l s) (judged l s)) := by
  unfold takePageDone
  rw [if_neg (by simp [hfull]), if_neg (by simp [htrained])]
  rfl

theorem takePageDone_lastVerdict {l : LineId} {s : State} (e : PageEnd) (hfull : (s.fw.get l).storeFull = false)
    (htrained : (s.fw.get l).trained = true) :
    ((takePageDone l e s).fw.get l).lastVerdict = some (pageVerdict l s) := by
  rw [takePageDone_of_trained e hfull htrained]
  split
  case isTrue => simp [judged_lastVerdict]
  case isFalse => rw [answerKept_lastVerdict (answerPage_lastVerdict l _ e), keepPage_lastVerdict, judged_lastVerdict]

/-- Without a page entry a PAGE-DONE frees nothing and keeps nothing, whatever its verdict (R158). -/
theorem takePageDone_of_no_entry {l : LineId} {s : State} (e : PageEnd) (hfull : (s.fw.get l).storeFull = false)
    (htrained : (s.fw.get l).trained = true) (hentry : (s.fw.get l).pageEntry = none) :
    (takePageDone l e s).store = s.store ∧ ((takePageDone l e s).fx.get l).kept = (s.fx.get l).kept := by
  have hjudged : ((judged l s).fw.get l).pageEntry = none := (judged_pageEntry l s).trans hentry
  rw [takePageDone_of_trained e hfull htrained]
  split
  case isTrue =>
    rw [dropPage_of_no_entry hjudged, forgetPage_of_no_entry hjudged]
    simp [judged]
  case isFalse =>
    rw [answerKept_store (answerPage_store l _ e), answerKept_kept (answerPage_kept l _ e), keepPage_of_no_entry hjudged]
    simp [judged]

/-- Settles O17: the verdicts by `judgePage`'s three equivalences, PAGE-DONE by what it records and by what a page without a page entry
leaves alone, the page of no line by the end of its data. -/
theorem pageVerdictByItsLimits : Obligations.PageVerdictByItsLimits := by
  refine ⟨fun lines bad run t u => ?verdicts, fun l e s hfull htrained => ?pageDone, fun l s hdoc hlines => ?noLine⟩
  case verdicts =>
    exact ⟨judgePage_eq_good_iff lines bad run t u, judgePage_eq_poor_iff lines bad run t u,
      judgePage_eq_bad_iff lines bad run t u, judgePage_ne_pending lines bad run t u⟩
  case pageDone => exact ⟨takePageDone_lastVerdict e hfull htrained, takePageDone_of_no_entry e hfull htrained⟩
  case noLine => exact endPageData_pageEntry hdoc hlines

end Sys2Proof.Claims
end

section
/-! SUPPORT. HELLO, IDENTIFY and SET NOTICES (R203): how a command is carried out in READY and in ATTACHED and answered, what HELLO makes
of a port, which classes and notices a new mask keeps; and with them `Obligations.HelloIdentifyAndSetNotices`. -/

namespace Sys2Proof.Claims

open Sys2Proof.Machine

/-! ## Carrying out a command and answering it -/

theorem pushReply_dropCommand (h : CmdHead) (code : Result) (body : ReplyBody) (s : State) :
    pushReply h.port ⟨h.tag, code, body⟩ (dropCommand h.port s) = answered h code body s := by
  simp [pushReply, dropCommand, answered, State.updPc]

/-- With no command queued, an answer is the reply alone. -/
theorem pushReply_of_empty {h : CmdHead} {s : State} (hempty : (s.pc.get h.port).cmdQueue = []) (code : Result) (body : ReplyBody) :
    pushReply h.port ⟨h.tag, code, body⟩ s = answered h code body s := by
  rw [← pushReply_dropCommand, dropCommand_of_empty h.port hempty]

theorem carryOut_of_takes {h : CmdHead} {c : Command} {s : State} (ht : Takes h c s) (body : State → State × Result × ReplyBody) :
    carryOut h c body s =
      pushReply h.port ⟨h.tag, (body (dropCommand h.port s)).2.1, (body (dropCommand h.port s)).2.2⟩
        (body (dropCommand h.port s)).1 :=
  carryOut_ready h c body ht.runs ht.ready ht.form ht.room ht.turn

/-- An ATTACHED port with no command queued carries out the two commands it takes (Table 11-1). -/
theorem carryOut_attached {h : CmdHead} {c : Command} {s : State} (body : State → State × Result × ReplyBody)
    (hruns : Runs s) (hform : h.argsOk = true) (hstate : (s.pc.get h.port).state = .attached)
    (hempty : (s.pc.get h.port).cmdQueue = []) (hroom : (s.pc.get h.port).replyQueue.length < 4) (hc : takenAttached c = true) :
    carryOut h c body s = pushReply h.port ⟨h.tag, (body s).2.1, (body s).2.2⟩ (body s).1 := by
  rw [carryOut_taken h c body hruns (by simp [hstate]) hroom (.inl hempty), dropCommand_of_empty h.port hempty]
  simp [answerCommand, hc, hform]

theorem command_of_runs {s : State} (hruns : Runs s) (h : CmdHead) (c : Command) (body : State → State × Result × ReplyBody) :
    command h c body s = settle s (carryOut h c body s) := by
  simp [command, event, follow, hruns]

/-! ## The fields of IDENTIFY -/

/-- The fields IDENTIFY answers at a port in state `st` (R203). -/
def identityAt (p : PortId) (st : PortState) (s : State) : ReplyBody :=
  .identity "UBECTA" "TAVICOR 2408" Config.designRevision (s.store.nBlocks * 512) s.store.nBlocks p st

theorem identity_eq_identityAt {p : PortId} {s : State} {st : PortState} (hstate : (s.pc.get p).state = st) :
    identity p s = identityAt p st s := by
  subst hstate
  rfl

theorem identity_dropCommand (p : PortId) (s : State) : identity p (dropCommand p s) = identity p s := by
  simp [identity, dropCommand]

theorem designRevision_bounds : 1 ≤ Config.designRevision ∧ Config.designRevision ≤ 255 :=
  ⟨Nat.le_add_left 1 _, Config.designRevisionLessOne.isLt⟩

theorem identify_of_takes {h : CmdHead} {s : State} (ht : Takes h .identify s) :
    OnlyAnswers (.identify h) h .ok (identityAt h.port .ready s) s := by
  have hdone : carryOut h .identify (fun s => (s, .ok, identity h.port s)) s = answered h .ok (identityAt h.port .ready s) s := by
    rw [carryOut_of_takes ht, pushReply_dropCommand, identity_dropCommand, identity_eq_identityAt ht.ready]
  exact congrArg Host.Outcome.next hdone

theorem identify_of_attached {h : CmdHead} {s : State} (hruns : Runs s) (hform : h.argsOk = true)
    (hstate : (s.pc.get h.port).state = .attached) (hempty : (s.pc.get h.port).cmdQueue = [])
    (hroom : (s.pc.get h.port).replyQueue.length < 4) :
    OnlyAnswers (.identify h) h .ok (identityAt h.port .attached s) s := by
  have hdone : carryOut h .identify (fun s => (s, .ok, identity h.port s)) s = answered h .ok (identityAt h.port .attached s) s := by
    rw [carryOut_attached _ hruns hform hstate hempty hroom rfl, pushReply_of_empty hempty, identity_eq_identityAt hstate]
  exact congrArg Host.Outcome.next hdone

/-! ## HELLO -/

/-- The state with a port in READY: no notice pending, every class enabled, the port's change flags empty on both lines (R203). -/
def entered (p : PortId) (s : State) : State :=
  { s with lc := ⟨{ s.lc.line0 with changes := s.lc.line0.changes.set p .empty },
                  { s.lc.line1 with changes := s.lc.line1.changes.set p .empty }⟩,
           pc := s.pc.set p { s.pc.get p with state := .ready, noticeQueue := [], mask := allClasses } }

theorem enterReady_of_attached {p : PortId} {s : State} (hstate : (s.pc.get p).state = .attached) : enterReady p s = entered p s := by
  rw [enterReady, if_pos hstate]
  rfl

theorem enterReady_of_ready {p : PortId} {s : State} (hstate : (s.pc.get p).state = .ready) : enterReady p s = s := by
  simp [enterReady, hstate]

theorem identity_entered (p : PortId) (s : State) : identity p (entered p s) = identityAt p .ready s :=
  identity_eq_identityAt (s := entered p s) (by simp [entered])

/-- What HELLO comes to, from what carrying it out makes of the state. -/
theorem follows_hello {h : CmdHead} {s u : State} (hruns : Runs s)
    (hdone : carryOut h .hello (fun s => (enterReady h.port s, .ok, identity h.port (enterReady h.port s))) s = u) :
    Follows (.hello h) s u := by
  subst hdone
  exact congrArg Host.Outcome.next (command_of_runs hruns h .hello _)

theorem hello_of_takes {h : CmdHead} {s : State} (ht : Takes h .hello s) :
    Follows (.hello h) s (answered h .ok (identityAt h.port .ready s) s) := by
  have hready : ((dropCommand h.port s).pc.get h.port).state = .ready := by simp [dropCommand, ht.ready]
  apply follows_hello ht.runs
  rw [carryOut_of_takes ht, enterReady_of_ready hready, pushReply_dropCommand, identity_dropCommand, identity_eq_identityAt ht.ready]

theorem hello_of_attached {h : CmdHead} {s : State} (hruns : Runs s) (hform : h.argsOk = true)
    (hstate : (s.pc.get h.port).state = .attached) (hempty : (s.pc.get h.port).cmdQueue = [])
    (hroom : (s.pc.get h.port).replyQueue.length < 4) :
    Follows (.hello h) s (answered h .ok (identityAt h.port .ready s) (entered h.port s)) := by
  have hentered : ((entered h.port s).pc.get h.port).cmdQueue = [] := by simp [entered, hempty]
  apply follows_hello hruns
  rw [carryOut_attached _ hruns hform hstate hempty hroom rfl, enterReady_of_attached hstate, pushReply_of_empty hentered,
    identity_entered]

/-! ## SET NOTICES -/

theorem classesOf_map_some (cs : List NoticeClass) : classesOf (cs.map some) = some cs := by
  induction cs with
  | nil => rfl
  | cons c cs ih => simp [classesOf, ih]

theorem classesOf_of_none_mem {cs : List (Option NoticeClass)} (hnone : none ∈ cs) : classesOf cs = none := by
  induction cs with
  | nil => exact absurd hnone List.not_mem_nil
  | cons c cs ih =>
    cases c with
    | none => rfl
    | some c =>
      have htail : none ∈ cs := by simpa using hnone
      simp [classesOf, ih htail]

theorem mem_allClasses (x : NoticeClass) : x ∈ allClasses := by
  cases x <;> decide

/-- A class is enabled by the new mask just when SET NOTICES names it, every class being in `allClasses`. -/
theorem contains_newMask (cs : List NoticeClass) (x : NoticeClass) :
    (allClasses.filter fun y => cs.contains y).contains x = cs.contains x := by
  rw [Bool.eq_iff_iff]
  simp [mem_allClasses]

theorem setMask_eq (cs : List NoticeClass) (c : PortCtl) :
    c.setMask cs = { c with mask := allClasses.filter fun x => cs.contains x,
                            noticeQueue := c.noticeQueue.filter fun n => cs.contains n.cls } := by
  simp only [PortCtl.setMask, contains_newMask]

/-- A new mask and the taking of a command from the queue do not meet. -/
theorem updPc_setMask_dropCommand (p : PortId) (cs : List NoticeClass) (s : State) :
    (dropCommand p s).updPc p (PortCtl.setMask cs) = dropCommand p (s.updPc p (PortCtl.setMask cs)) := by
  simp [dropCommand, State.updPc, PortCtl.setMask]

theorem setNotices_of_known {h : CmdHead} {s : State} (cs : List NoticeClass) (ht : Takes h (.setNotices (cs.map some)) s) :
    exec (.setNotices h (cs.map some)) s = .next (answered h .ok .none (s.updPc h.port (PortCtl.setMask cs))) := by
  have hbody (t : State) : setNoticesBody h.port (cs.map some) t = (t.updPc h.port (PortCtl.setMask cs), .ok, .none) := by
    simp [setNoticesBody, classesOf_map_some, justCode]
  have hdone : carryOut h (.setNotices (cs.map some)) (setNoticesBody h.port (cs.map some)) s =
      answered h .ok .none (s.updPc h.port (PortCtl.setMask cs)) := by
    rw [carryOut_of_takes ht, hbody, updPc_setMask_dropCommand, pushReply_dropCommand]
  exact congrArg Host.Outcome.next hdone

theorem setNotices_of_unknown {h : CmdHead} {s : State} {cs : List (Option NoticeClass)} (hnone : none ∈ cs)
    (ht : Takes h (.setNotices cs) s) : OnlyAnswers (.setNotices h cs) h .badArgument .none s := by
  have hbody (t : State) : setNoticesBody h.port cs t = (t, .badArgument, .none) := by
    simp [setNoticesBody, classesOf_of_none_mem hnone, justCode]
  have hdone : carryOut h (.setNotices cs) (setNoticesBody h.port cs) s = answered h .badArgument .none s := by
    rw [carryOut_of_takes ht, hbody, pushReply_dropCommand]
  exact congrArg Host.Outcome.next hdone

/-- Settles O22: IDENTIFY and HELLO by what a port carries out in READY and in ATTACHED, SET NOTICES by its known and its unknown
classes. -/
theorem helloIdentifyAndSetNotices : Obligations.HelloIdentifyAndSetNotices := by
  intro h s
  refine ⟨designRevision_bounds, identify_of_takes, hello_of_takes, fun hruns hform hstate hempty hroom => ?attached,
    fun cs ht => ?known, fun cs hnone ht => setNotices_of_unknown hnone ht⟩
  case attached =>
    exact ⟨identify_of_attached hruns hform hstate hempty hroom, hello_of_attached hruns hform hstate hempty hroom⟩
  case known =>
    rw [setNotices_of_known cs ht, funext (setMask_eq cs)]

end Sys2Proof.Claims
end
